-- ==== Sys2Proof/Word.lean ====
section
/-! DEFINITION. The word types of the SRAMPlatform link block (spec/00_scope.md R11) and nothing else. -/

namespace Sys2Proof

/-- A byte, the spec's `u8` (R11). -/
abbrev Byte := BitVec 8

/-- The spec's `u16` (R11): a checksum, a CRC accumulator, an entry of the CRC table. -/
abbrev Half := BitVec 16

/-- The spec's `u32` (R11): the `options` field. -/
abbrev Quad := BitVec 32

/-- `zeros(n)` of R11: `n` bytes `0x00`. -/
def zeros (n : Nat) : List Byte := List.replicate n 0

@[simp] theorem zeros_length (n : Nat) : (zeros n).length = n := by simp [zeros]

end Sys2Proof
end

