-- ==== Sys2Proof/Syntax.lean ====
section
/-! DEFINITION. The instructions: one constructor per row of spec/opcode_table.json, nine packet commands (frames,
spec/30_encoding.md R70, R73) and nineteen block operations (R82). -/

namespace Sys2Proof

/-- The fields of a frame after its command byte (R70). `uid` is 25 bytes and `data` is `DATA_SIZE` bytes in a
well-formed frame. -/
structure FrameBody where
  pic : Byte
  options : Quad
  uid : List Byte
  data : List Byte
  checksum : Half
  deriving DecidableEq, Repr

/-- The instructions of spec/opcode_table.json (R3). A packet command is a frame, with the fields of its frame; a
block operation carries its typed operands (R82). -/
inductive Instr where
  | ack (f : FrameBody)
  | ping (f : FrameBody)
  | read (f : FrameBody)
  | write (f : FrameBody)
  | sensors (f : FrameBody)
  | load (f : FrameBody)
  | exec (f : FrameBody)
  | retr (f : FrameBody)
  | err (f : FrameBody)
  | crc16 (buffer : List Byte)
  | crcInit
  | crcByte (b : Byte)
  | crcRead
  | pktClear
  | setCommand (c : Byte)
  | setPic (p : Byte)
  | setOptions (v : Quad)
  | setUid (uid : List Byte)
  | setData (payload : List Byte)
  | getField (field : Byte)
  | craft
  | toBytes
  | decode (raw : List Byte)
  | checkCrc
  | expectedSize
  | extractSensors
  | send (bytes : List Byte)
  | receiveFrames (timeout maxTries : Nat)
  deriving DecidableEq, Repr

/-- The two encodings of spec/30_encoding.md: the operation-select code with its operands (R82), and the frame
(R70). -/
inductive Lane where
  /-- The host's request port: an operation code and its operands. -/
  | operation
  /-- A frame: a packet command with its fields. -/
  | frame
  deriving DecidableEq, Repr

/-- Which of the two encodings an instruction has. -/
def Instr.lane : Instr → Lane
  | .ack _ | .ping _ | .read _ | .write _ | .sensors _ | .load _ | .exec _ | .retr _ | .err _ => .frame
  | .crc16 _ | .crcInit | .crcByte _ | .crcRead | .pktClear | .setCommand _ | .setPic _ | .setOptions _
  | .setUid _ | .setData _ | .getField _ | .craft | .toBytes | .decode _ | .checkCrc | .expectedSize
  | .extractSensors | .send _ | .receiveFrames _ _ => .operation

end Sys2Proof
end

