-- ==== Sys2Proof/WellFormed.lean ====
section
/-! DEFINITION. Well-formedness of an instruction for a payload size: what the frame layout of spec/30_encoding.md R70
asks of a packet command. A block operation takes every operand of its type (R82); a length that an operation refuses
is an error outcome of its meaning (R117, R118, R120), not an ill-formed term. -/

namespace Sys2Proof

/-- R70: `uid` is 25 bytes. -/
def FrameBody.uidFits (f : FrameBody) : Bool := f.uid.length == uidLen

/-- R70: `data` is `DATA_SIZE` bytes. -/
def FrameBody.dataFits (dataSize : Nat) (f : FrameBody) : Bool := f.data.length == dataSize

/-- Both checks of R70 on the fields of a frame. -/
def FrameBody.wf (dataSize : Nat) (f : FrameBody) : Bool := f.uidFits && f.dataFits dataSize

/-- An instruction is well formed for `DATA_SIZE` when its frame, if it is one, has the layout of R70. -/
def Instr.wf (dataSize : Nat) : Instr → Bool
  | .ack f | .ping f | .read f | .write f | .sensors f | .load f | .exec f | .retr f | .err f => f.wf dataSize
  | .crc16 _ | .crcInit | .crcByte _ | .crcRead | .pktClear | .setCommand _ | .setPic _ | .setOptions _
  | .setUid _ | .setData _ | .getField _ | .craft | .toBytes | .decode _ | .checkCrc | .expectedSize
  | .extractSensors | .send _ | .receiveFrames _ _ => true

end Sys2Proof
end

