-- ==== Sys2Proof/Decode.lean ====
section
/-! DEFINITION. The decoder and the encoder of the two encodings of spec/30_encoding.md, with the byte-order helpers
of spec/00_scope.md R11 that they and the codec use. -/

namespace Sys2Proof

/-- `s[i]` of R11; the uses keep `i` inside the sequence. -/
def byteAt (l : List Byte) (i : Nat) : Byte := l.getD i 0

/-- `s[i .. i + n)` of R11. -/
def slice (l : List Byte) (i n : Nat) : List Byte := (l.drop i).take n

/-- `le16` of R11: the byte at `i` is bits 7:0. -/
def le16 (l : List Byte) (i : Nat) : Half := BitVec.ofNat 16 ((byteAt l i).toNat + 256 * (byteAt l (i + 1)).toNat)

/-- `le32` of R11: the byte at `i` is bits 7:0, the byte at `i + 3` is bits 31:24. -/
def le32 (l : List Byte) (i : Nat) : Quad :=
  BitVec.ofNat 32 ((byteAt l i).toNat + 256 * (byteAt l (i + 1)).toNat + 65536 * (byteAt l (i + 2)).toNat
    + 16777216 * (byteAt l (i + 3)).toNat)

/-- `to_le16` of R11. -/
def toLe16 (v : Half) : List Byte := [v.extractLsb' 0 8, v.extractLsb' 8 8]

/-- `to_le32` of R11. -/
def toLe32 (v : Quad) : List Byte :=
  [v.extractLsb' 0 8, v.extractLsb' 8 8, v.extractLsb' 16 8, v.extractLsb' 24 8]

/-- `serialize` of R111: the frame of R70. -/
def serialize (command pic : Byte) (options : Quad) (uid data : List Byte) (checksum : Half) : List Byte :=
  [command, pic] ++ toLe32 options ++ uid ++ data ++ toLe16 checksum

/-- The frame of a packet command with the fields `f` (R70). -/
def frameBytes (command : Byte) (f : FrameBody) : List Byte :=
  serialize command f.pic f.options f.uid f.data f.checksum

/-- The fields of a frame after its command byte (R86). -/
def frameFields (dataSize : Nat) (raw : List Byte) : FrameBody where
  pic := byteAt raw 1
  options := le32 raw 2
  uid := slice raw 6 uidLen
  data := slice raw headerSize dataSize
  checksum := le16 raw (headerSize + dataSize)

/-- A natural number as an operand of a request: seven bits a byte, the low ones first, bit 7 set on every byte but
the last (DESIGN CHOICE, notes/assumptions/6.md: R82 lets operands travel as typed values and gives no bytes). The
first argument bounds the number of bytes. -/
def natBytesUpTo : Nat → Nat → List Byte
  | 0, n => [BitVec.ofNat 8 n]
  | fuel + 1, n =>
    if n < 128 then [BitVec.ofNat 8 n]
    else BitVec.ofNat 8 (n % 128 + 128) :: natBytesUpTo fuel (n / 128)

/-- The bytes of a natural operand. -/
def natBytes (n : Nat) : List Byte := natBytesUpTo n n

/-- Reads a natural operand and answers it with the bytes after it. -/
def readNat : List Byte → Option (Nat × List Byte)
  | [] => none
  | b :: rest =>
    if b.toNat < 128 then some (b.toNat, rest)
    else (readNat rest).map fun r => (b.toNat - 128 + 128 * r.1, r.2)

/-- Why the decoder answers no instruction. -/
inductive Reject where
  /-- No byte at all was given. -/
  | empty
  /-- R83: a reserved operation code. -/
  | reservedOp (code : BitVec 5)
  /-- The bytes after the operation code are no operand of the type R82 gives the operation. -/
  | malformedOperand (code : BitVec 5)
  /-- R86: a buffer whose length is not `FRAME_SIZE`. -/
  | frameLength (got want : Nat)
  /-- R74: a reserved command value. -/
  | reservedCommand (command : Byte)
  deriving DecidableEq, Repr

/-- The operation-select code of a request: bits 4:0 of its first byte (R82). -/
def opCode (b : Byte) : BitVec 5 := b.extractLsb' 0 5

/-- An operation with no operand: nothing may follow its code. -/
def noOperand (code : BitVec 5) (rest : List Byte) (i : Instr) : Except Reject Instr :=
  match rest with
  | [] => .ok i
  | _ => .error (.malformedOperand code)

/-- An operation with one `u8` operand. -/
def byteOperand (code : BitVec 5) (rest : List Byte) (i : Byte → Instr) : Except Reject Instr :=
  match rest with
  | [b] => .ok (i b)
  | _ => .error (.malformedOperand code)

/-- `SET_OPTIONS`: one `u32` operand, little-endian. -/
def quadOperand (code : BitVec 5) (rest : List Byte) (i : Quad → Instr) : Except Reject Instr :=
  match rest with
  | [b0, b1, b2, b3] => .ok (i (le32 [b0, b1, b2, b3] 0))
  | _ => .error (.malformedOperand code)

/-- `RECEIVE_FRAMES`: two natural operands. -/
def twoNatOperands (code : BitVec 5) (rest : List Byte) (i : Nat → Nat → Instr) : Except Reject Instr :=
  match readNat rest with
  | none => .error (.malformedOperand code)
  | some (m, rest) =>
    match readNat rest with
    | some (n, []) => .ok (i m n)
    | _ => .error (.malformedOperand code)

/-- A block operation from its code and the bytes of its operands (R82, R83). A byte-sequence operand is all the
bytes after the code: a request carries its length. -/
def decodeOperation (code : BitVec 5) (rest : List Byte) : Except Reject Instr :=
  match code.toNat with
  | 0x01 => .ok (.crc16 rest)
  | 0x02 => noOperand code rest .crcInit
  | 0x03 => byteOperand code rest .crcByte
  | 0x04 => noOperand code rest .crcRead
  | 0x08 => noOperand code rest .pktClear
  | 0x09 => byteOperand code rest .setCommand
  | 0x0A => byteOperand code rest .setPic
  | 0x0B => quadOperand code rest .setOptions
  | 0x0C => .ok (.setUid rest)
  | 0x0D => .ok (.setData rest)
  | 0x0E => byteOperand code rest .getField
  | 0x10 => noOperand code rest .craft
  | 0x11 => noOperand code rest .toBytes
  | 0x12 => .ok (.decode rest)
  | 0x13 => noOperand code rest .checkCrc
  | 0x14 => noOperand code rest .expectedSize
  | 0x15 => noOperand code rest .extractSensors
  | 0x18 => .ok (.send rest)
  | 0x19 => twoNatOperands code rest .receiveFrames
  | _ => .error (.reservedOp code)

/-- The request port's decoder: total on any bytes. -/
def decodeRequest : List Byte → Except Reject Instr
  | [] => .error .empty
  | b :: rest => decodeOperation (opCode b) rest

/-- The packet command of a command byte with the fields `f` (R73), or `none` for a reserved value (R74). -/
def packetCommand (command : Byte) (f : FrameBody) : Option Instr :=
  match command.toNat with
  | 1 => some (.ack f)
  | 2 => some (.ping f)
  | 3 => some (.read f)
  | 4 => some (.write f)
  | 5 => some (.sensors f)
  | 6 => some (.load f)
  | 7 => some (.exec f)
  | 8 => some (.retr f)
  | 255 => some (.err f)
  | _ => none

/-- `cmd_known` of R74. -/
def cmdKnown (command : Byte) : Bool := (packetCommand command ⟨0, 0, [], [], 0⟩).isSome

/-- The frame decoder of R86: total on any bytes, it refuses every length but `FRAME_SIZE` and every reserved command
value. -/
def decodeFrame (dataSize : Nat) (raw : List Byte) : Except Reject Instr :=
  if raw.length = frameSize dataSize then
    match packetCommand (byteAt raw 0) (frameFields dataSize raw) with
    | some i => .ok i
    | none => .error (.reservedCommand (byteAt raw 0))
  else .error (.frameLength raw.length (frameSize dataSize))

/-- The decoder of either encoding. -/
def decode (lane : Lane) (dataSize : Nat) (bytes : List Byte) : Except Reject Instr :=
  match lane with
  | .operation => decodeRequest bytes
  | .frame => decodeFrame dataSize bytes

/-- The encoder: the bytes of a request (R82) or of a frame (R70, R73). -/
def encode : Instr → List Byte
  | .ack f => frameBytes 0x01 f
  | .ping f => frameBytes 0x02 f
  | .read f => frameBytes 0x03 f
  | .write f => frameBytes 0x04 f
  | .sensors f => frameBytes 0x05 f
  | .load f => frameBytes 0x06 f
  | .exec f => frameBytes 0x07 f
  | .retr f => frameBytes 0x08 f
  | .err f => frameBytes 0xFF f
  | .crc16 buffer => 0x01 :: buffer
  | .crcInit => [0x02]
  | .crcByte b => [0x03, b]
  | .crcRead => [0x04]
  | .pktClear => [0x08]
  | .setCommand c => [0x09, c]
  | .setPic p => [0x0A, p]
  | .setOptions v => 0x0B :: toLe32 v
  | .setUid uid => 0x0C :: uid
  | .setData payload => 0x0D :: payload
  | .getField field => [0x0E, field]
  | .craft => [0x10]
  | .toBytes => [0x11]
  | .decode raw => 0x12 :: raw
  | .checkCrc => [0x13]
  | .expectedSize => [0x14]
  | .extractSensors => [0x15]
  | .send bytes => 0x18 :: bytes
  | .receiveFrames timeout maxTries => 0x19 :: (natBytes timeout ++ natBytes maxTries)

/-- How many operand bytes of zeros follow an operation code where only the code is given: the operand's own size,
and a payload or a frame where R118 and R120 ask for one. -/
def zeroOperandBytes (dataSize : Nat) (code : BitVec 5) : Nat :=
  match code.toNat with
  | 0x03 | 0x09 | 0x0A | 0x0E => 1
  | 0x0B => 4
  | 0x0D => dataSize
  | 0x12 => frameSize dataSize
  | 0x19 => 2
  | _ => 0

/-- The bytes of a word of `nbits` bits, the low byte first. -/
def wordBytes (nbits w : Nat) : List Byte :=
  (List.range ((nbits + 7) / 8)).map fun i => BitVec.ofNat 8 (w >>> (8 * i))

/-- `bytes` with zeros after it up to `n` bytes. -/
def padTo (n : Nat) (bytes : List Byte) : List Byte := bytes ++ zeros (n - bytes.length)

/-- The lane and the bytes of the instruction that a word of spec/opcode_table.json begins, its operands zero. The
table's two maps share the numbers 1 to 4 and 8: such a number is read as the operation code (DESIGN CHOICE,
notes/assumptions/7.md). -/
def tableBytes (dataSize nbits w : Nat) : Lane × List Byte :=
  let code := BitVec.ofNat 5 w
  let request := padTo (1 + zeroOperandBytes dataSize code) (wordBytes nbits w)
  match decodeRequest request with
  | .ok _ => (.operation, request)
  | .error _ => (.frame, padTo (frameSize dataSize) (wordBytes nbits w))

/-- The instruction the decoder reads from a word of spec/opcode_table.json, at the reset configuration's
`DATA_SIZE`. -/
def decodeTableWord (nbits w : Nat) : Option Instr :=
  let b := tableBytes Config.default.dataSize nbits w
  (decode b.1 Config.default.dataSize b.2).toOption

end Sys2Proof
end

