-- ==== Sys2Proof/Machine/State.lean ====
section
/-! DEFINITION. The state of the link block and of its one client, the session (spec/10_state.md), the reasons a step
can stop, and the state after reset (R43). Plain data throughout. -/

namespace Sys2Proof.Machine

/-- The Packet value of R23, with its materialised bytes. -/
structure Packet where
  command : Byte
  pic : Byte
  options : Quad
  uid : List Byte
  data : List Byte
  checksum : Half
  wire : List Byte
  deriving DecidableEq, Repr

/-- `PKT` (R25) with its three flag elements (R27). Bit 0 of `written` is `command`, 1 `pic`, 2 `options`, 3 `uid`,
4 `data`. -/
structure PacketRegister extends Packet where
  written : BitVec 5
  cksAssigned : Bool
  crafted : Bool
  deriving DecidableEq, Repr

/-- Where a running `SEND` stands (R141). -/
inductive SendPhase where
  /-- No `SEND` is running. -/
  | idle
  /-- S1, and S2 once nothing is left to push. -/
  | push
  /-- S3, the settle delay. -/
  | settle
  /-- S4. -/
  | done
  deriving DecidableEq, Repr

/-- `TX.stream` (R31), with what a running `SEND` still has to push and where it stands (R141). -/
structure Transmitter where
  stream : List Byte
  phase : SendPhase
  todo : List Byte
  deriving DecidableEq, Repr

/-- `FR.phase` (R33). -/
inductive ReceivePhase where
  | idle
  | initWait
  | sample
  | drain
  | sleep
  | done
  deriving DecidableEq, Repr

/-- The Frame Receiver's state `FR.*` (R33 to R36). -/
structure FrameReceiver where
  phase : ReceivePhase
  iter : Nat
  maxTries : Nat
  timeout : Nat
  /-- The rolling history, newest sample first. -/
  hist : List Nat
  buf : List Byte
  packets : List Packet
  crcOk : List Bool
  deriving DecidableEq, Repr

/-- `ST.err` and `ST.busy` (R37). -/
structure Status where
  err : BitVec 4
  busy : Bool
  deriving DecidableEq, Repr

/-- Which divisor of `EXTRACT_SENSORS` is zero (R221). -/
inductive Divisor where
  /-- `cal110 = cal30`. -/
  | calibration
  /-- `vdd_raw = 0`. -/
  | supply
  deriving DecidableEq, Repr

/-- The phase a running operation was aborted in (R221, R232). -/
inductive AbortPhase where
  | send (phase : SendPhase)
  | receive (phase : ReceivePhase)
  deriving DecidableEq, Repr

/-- The error outcomes of R221, each with the information recorded. -/
inductive BlockError where
  | notCrafted
  | sizeMismatch (got want : Nat)
  | divideByZero (which : Divisor)
  | notPopulated (written : BitVec 5)
  | packetLocked
  | fieldUnset (field : Nat)
  | badOperand (length : Nat)
  | payloadTooShort (dataSize : Nat)
  | reservedOp (code : Nat)
  | busy
  | aborted (phase : AbortPhase)
  deriving DecidableEq, Repr

/-- The result of a block operation (R82). -/
inductive Value where
  | unit
  | byte (b : Byte)
  | half (h : Half)
  | quad (q : Quad)
  | bytes (l : List Byte)
  | bit (b : Bool)
  | nat (n : Nat)
  /-- `temp_e5` and `volt_e5` (R125). -/
  | sensors (temperature voltage : Int)
  | frames (l : List (Packet × Bool))
  deriving DecidableEq, Repr

/-- What the requester of a block operation is given (R84, R220). -/
inductive Response where
  /-- No operation has been requested since reset. -/
  | none
  /-- A `SEND` or `RECEIVE_FRAMES` is running. -/
  | pending
  | ok (v : Value)
  | error (e : BlockError)
  deriving DecidableEq, Repr

/-- A Device record (R40). `uid` is the logical string of R77 as its bytes. -/
structure Device where
  uid : List Byte
  pic : Byte
  sramSize : Nat
  deriving DecidableEq, Repr

/-- What a sample record holds beside its board type and uid (R210 (a)). `offset` and `bytes` are the model's own: the
address string and the comma-joined values are written from them (notes/assumptions/13.md). -/
structure Sample where
  pic : Byte
  /-- The address string (R209). -/
  address : List Char
  /-- The comma-joined byte values. -/
  values : List Char
  /-- The timestamp, kept as the record's place in capture order. -/
  timestamp : Nat
  /-- The region offset. -/
  offset : Nat
  /-- The bytes of the region. -/
  bytes : List Byte
  deriving DecidableEq, Repr

/-- The record kinds the session hands to the persistence sink (R210 (a)). -/
inductive RecordBody where
  | sample (m : Sample)
  /-- A sensor reading, in units of `10^-5` (R125). -/
  | sensor (temperature voltage : Int)
  deriving DecidableEq, Repr

/-- A record handed to the persistence sink (R210 (a)). -/
structure Record where
  boardType : List Char
  uid : List Byte
  body : RecordBody
  deriving DecidableEq, Repr

/-- The persistence sink as the core sees it (R210 (a)): records inserted and not yet committed, and records
stored. -/
structure Sink where
  pending : List Record
  stored : List Record
  deriving DecidableEq, Repr

/-- The command errors of R227 and R228. -/
inductive CommandError where
  | channelOff
  | noDevices
  | unknownDevice (uid : List Byte)
  | offsetRange (offset : Int) (max : Nat)
  | sourceTooLong (length : Nat)
  | reservedCommand (command : Byte)
  | noReply
  | crcFailure
  | deviceError (command : Byte)
  deriving DecidableEq, Repr

/-- Which reading a running exchange gives its reply (R193 to R204). -/
inductive Purpose where
  | ping
  | read (d : Device) (offset : Nat)
  | write (d : Device) (offset : Nat)
  | load (d : Device)
  | exec (d : Device)
  | retr (d : Device)
  | sensors (d : Device)
  deriving DecidableEq, Repr

/-- The levels of the logging sink (R210 (b)). -/
inductive LogLevel where
  | informational
  | warning
  | error
  | results
  deriving DecidableEq, Repr

/-- What the session tells the logging sink (R210 (b)). Which events are told beyond those a rule says are logged is the
model's choice (DESIGN CHOICE, notes/assumptions/25.md). -/
inductive LogEntry where
  /-- PING dropped a reply frame that fails its check (R193). -/
  | frameDropped (p : Packet)
  /-- PING skipped a CRC-valid reply frame that is an ERR or carries a reserved command (R179, R180, R226). -/
  | errorReply (p : Packet)
  /-- One unit of work was skipped (R222, R226, R227). -/
  | skipped (p : Purpose) (why : CommandError)
  /-- The unit of work of a single-target command failed, and the handler with it (R179, R226, R227). -/
  | failed (p : Purpose) (why : CommandError)
  /-- WRITE_INVERT skipped a device whose stored samples are not complete (R199). -/
  | samplesIncomplete (d : Device) (got want : Nat)
  /-- PING replaced the device list (R194). -/
  | chain (devices : List Device)
  /-- The display string of a RETR reply (R203). -/
  | display (text : List Char)
  deriving DecidableEq, Repr

/-- One emission to the logging sink: its level and what it tells (R210 (b)). -/
structure LogLine where
  level : LogLevel
  entry : LogEntry
  deriving DecidableEq, Repr

/-- How the last handler invocation ended (R193 to R206, R234). -/
inductive HandlerOutcome where
  | idle
  | running
  | ok
  /-- The status query's answer (R206). -/
  | status (on : Bool)
  /-- PING found nothing and no device was known before; whether it reports so is not stated (R193, U13). -/
  | emptyChain (reported : Bool)
  | commandError (e : CommandError)
  /-- R238. -/
  | hardError
  /-- R201: a nonzero `options` of an EXEC reply. -/
  | executionError (code : Quad)
  /-- R202, R203: the integers of a RETR reply and their display string. -/
  | integers (values : List Int) (text : List Char)
  /-- R223, R234: an error of the block that reaches the outer dispatcher. -/
  | blockError (e : BlockError)
  /-- R212, R232: the dispatcher's alarm ended the handler. -/
  | timeoutFault
  deriving DecidableEq, Repr

/-- One entry of the running handler's remaining work (R192, R195, R199, R204). -/
inductive Task where
  /-- Run a packet command as a request. -/
  | command (i : Instr)
  /-- Request a block operation. -/
  | op (i : Instr)
  /-- `TO_BYTES -> w`, to be followed by `SEND w`. -/
  | wire
  /-- Look at the replies of the last `RECEIVE_FRAMES`. -/
  | consult (p : Purpose)
  /-- Look at one more reply of an exchange that reads them all (R204). -/
  | reply (p : Purpose) (q : Packet) (ok : Bool)
  /-- `EXTRACT_SENSORS`, and insert the record of the device with the UID (R175, R204). -/
  | extract (uid : List Byte)
  /-- WRITE_INVERT of one device (R199). -/
  | invert (d : Device)
  /-- The sink's `commit()`. -/
  | commit
  deriving DecidableEq, Repr

/-- The session (R39), with the handler invocation in progress. -/
structure Session where
  devices : List Device
  chanOn : Bool
  plan : List Task
  /-- The exchange whose reply the next packet command is; `none` where a packet command is a request. -/
  awaiting : Option Purpose
  /-- The running handler is a multi-target command (R227). -/
  multi : Bool
  outcome : HandlerOutcome
  log : List LogLine
  sink : Sink
  deriving DecidableEq, Repr

/-- The handler invocations of the outer dispatcher (spec/44_session.md). -/
inductive Handler where
  | ping
  | read
  | write (uid : List Byte) (offset : Int) (payload : List Byte)
  | writeInvert
  | load (uid source : List Byte)
  | exec (uid : List Byte) (resetFlag : Option Quad)
  | retr (uid : List Byte)
  | sensors
  | powerOn
  | powerOff
  | status
  deriving DecidableEq, Repr

/-- What reaches the block and its session from outside, one entry a step (R21, R22). -/
inductive Input where
  /-- The agents inside move: a step of the block sequencer, the end of a sleep, or a step of the session. -/
  | turn
  /-- The environment appends a byte to `RX.fifo` (R152). -/
  | push (b : Byte)
  /-- The host requests a block operation, as bytes of the request port (R82). -/
  | request (bytes : List Byte)
  /-- The session is given a packet command, as the bytes of a frame (R70). -/
  | command (bytes : List Byte)
  /-- The outer dispatcher invokes a handler. -/
  | handler (h : Handler)
  /-- The dispatcher's alarm (R232). -/
  | alarm
  /-- The reset event (R250). -/
  | reset
  deriving DecidableEq, Repr

/-- The machine's whole state. -/
structure State where
  /-- The parameters (R9, R22); no step changes them. -/
  cfg : Config
  /-- `CRC.acc` (R24). -/
  crcAcc : Half
  /-- `PKT.*` (R25, R27). -/
  pkt : PacketRegister
  /-- `RX.fifo` (R30). -/
  rx : List Byte
  /-- `TX.stream` (R31) and a running `SEND` (R141). -/
  tx : Transmitter
  /-- `FR.*` (R33 to R36). -/
  fr : FrameReceiver
  /-- `ST.*` (R37). -/
  st : Status
  /-- What the last requester was given (R84, R220). -/
  resp : Response
  /-- `SES.*` (R39). -/
  ses : Session
  /-- How many free values have been used; the next one is indexed by it (the model's own). -/
  free : Nat
  /-- The schedule: what arrives from outside, and when the agents inside move (R22). It is finite; what comes after it is
  `beat`. -/
  script : List Input
  /-- What comes after the schedule, again and again without end, each round closed by a turn (R268); with nothing here the
  outside falls silent. Whether a script goes on for ever is open in R22: both kinds are states, and a schedule that never
  repeats stands as its finite beginnings (DESIGN CHOICE, notes/assumptions/5.md). -/
  beat : List Input
  deriving DecidableEq, Repr

/-- The reasons a step stops with a fault. There is none: every error of the spec is an outcome after which the machine
goes on (R220), and no step stops. -/
inductive Fault where
  deriving DecidableEq, Repr

/-- The reasons an instruction is refused. -/
inductive Refusal where
  /-- Raised by an arm of exec that has no meaning yet. Safe: the machine stops. -/
  | notModelled (mnemonic : String)
  deriving DecidableEq, Repr

/-- `PKT` after reset: the flags of R43; the unspecified and unreadable data elements hold zeros of their widths
(DESIGN CHOICE, notes/assumptions/1.md). -/
def PacketRegister.cleared (dataSize : Nat) : PacketRegister where
  command := 0
  pic := 0
  options := 0
  uid := zeros uidLen
  data := zeros dataSize
  checksum := 0
  wire := zeros (frameSize dataSize)
  written := 0
  cksAssigned := false
  crafted := false

/-- The state after reset of a block instance with the parameters `c` (R43, R250, R252). -/
def State.resetWith (c : Config) : State where
  cfg := c
  crcAcc := 0
  pkt := .cleared c.dataSize
  rx := []
  tx := { stream := [], phase := .idle, todo := [] }
  fr := { phase := .idle, iter := 0, maxTries := 0, timeout := 0, hist := [], buf := [], packets := [], crcOk := [] }
  st := { err := 0, busy := false }
  resp := .none
  ses := { devices := [], chanOn := c.chanOnReset, plan := [], awaiting := none, multi := false, outcome := .idle
           log := [], sink := { pending := [], stored := [] } }
  free := 0
  script := []
  beat := []

/-- The machine right after reset (R43), with the parameters of `Config.default`. -/
def State.reset : State := State.resetWith Config.default

end Sys2Proof.Machine
end

