-- ==== Sys2Proof/Machine/Flags.lean ====
section
/-! DEFINITION. The flag elements of `PKT` and the packet phase they encode (spec/10_state.md R27, R28). -/

namespace Sys2Proof.Machine

/-- The packet phases of R28. -/
inductive PacketPhase where
  | empty
  | populated
  | crafted
  deriving DecidableEq, Repr

/-- `PKT.written[k]` (R27). -/
def PacketRegister.isWritten (p : PacketRegister) (k : Nat) : Bool := p.written.getLsbD k

/-- `PKT.written[k] <- 1` (R27). -/
def PacketRegister.mark (p : PacketRegister) (k : Nat) : PacketRegister :=
  { p with written := p.written ||| (1#5 <<< k) }

/-- `PKT.written = 0b11111`: fully populated (R28). -/
def PacketRegister.full (p : PacketRegister) : Bool := p.written == 0b11111#5

/-- The packet phase as a function of the flags (R28). -/
def PacketRegister.phase (p : PacketRegister) : PacketPhase :=
  if p.crafted then .crafted else if p.written = 0 then .empty else .populated

/-- `HIST_CAP = floor(max_tries / 2)` (R9, D12). -/
def FrameReceiver.histCap (f : FrameReceiver) : Nat := f.maxTries / 2

/-- `quiet` of R149: the history is full and all zero, and a packet has been decoded. A history of capacity 0 is full
and all zero (D12). -/
def FrameReceiver.quiet (f : FrameReceiver) : Bool :=
  f.hist.length == f.histCap && f.hist.all (· == 0) && !f.packets.isEmpty

end Sys2Proof.Machine
end

