-- ==== Sys2Proof/Machine/Operands.lean ====
section
/-! DEFINITION. The forms of operands and results: the UID as string and as field (spec/30_encoding.md R77), the
readings of a payload (R79), the rounding of the sensor results (spec/41_codec.md R125), the address string and the
display string of the session (spec/44_session.md R203, R209). -/

namespace Sys2Proof.Machine

/-- The 25-byte field of a UID string of at most 25 characters: NUL padding on the right (R77, R117). -/
def uidField (s : List Byte) : List Byte := s ++ zeros (uidLen - s.length)

/-- The logical string of a UID field: all trailing NUL bytes removed (R77, D6). -/
def uidString (field : List Byte) : List Byte := (field.reverse.dropWhile (· == 0)).reverse

/-- A LOAD source in one payload: NUL padding on the right (R79, R200). -/
def loadPayload (dataSize : Nat) (source : List Byte) : List Byte := source ++ zeros (dataSize - source.length)

/-- The five `u16` of a SENSORS payload (R79). -/
structure SensorWords where
  cal110 : Half
  cal30 : Half
  rawTemp : Half
  vddCal : Half
  vddRaw : Half
  deriving DecidableEq, Repr

/-- The first ten payload bytes as five little-endian words (R54, R79). -/
def sensorWords (payload : List Byte) : SensorWords where
  cal110 := le16 payload 0
  cal30 := le16 payload 2
  rawTemp := le16 payload 4
  vddCal := le16 payload 6
  vddRaw := le16 payload 8

/-- The integer nearest to `num / den`, a tie going to the even one (R125, D9), for `0 < den`. -/
def roundRatio (num : Int) (den : Nat) : Int :=
  let q := num / (den : Int)
  let r := num % (den : Int)
  if 2 * r < den then q
  else if 2 * r > den then q + 1
  else if q % 2 = 0 then q else q + 1

/-- The same for a denominator of either sign. -/
def roundFraction (num den : Int) : Int :=
  if den < 0 then roundRatio (-num) (-den).toNat else roundRatio num den.toNat

/-- `temp_e5` of R125. -/
def temperatureE5 (w : SensorWords) : Int :=
  roundFraction (8000000 * ((w.rawTemp.toNat : Int) - w.cal30.toNat)) ((w.cal110.toNat : Int) - w.cal30.toNat)
    + 3000000

/-- `volt_e5` of R125. -/
def voltageE5 (w : SensorWords) : Int :=
  roundFraction (330000 * w.vddCal.toNat) w.vddRaw.toNat

/-- The first divisor of R125 that is zero, in the order of R235. -/
def zeroDivisor (w : SensorWords) : Option Divisor :=
  if w.cal110 = w.cal30 then some .calibration
  else if w.vddRaw = 0 then some .supply
  else none

/-- The little-endian signed 32-bit integers of a RETR payload, `floor(DATA_SIZE / 4)` of them (R79, R202, D25). -/
def retrIntegers (payload : List Byte) : List Int :=
  (List.range (payload.length / 4)).map fun j => (le32 payload (4 * j)).toInt

/-- A digit, upper case above nine. -/
def digitChar (d : Nat) : Char := if d < 10 then Char.ofNat (48 + d) else Char.ofNat (55 + d)

/-- The digits of `n` in a base of at least two, the highest first; the first argument bounds their number. -/
def digitsUpTo (base : Nat) : Nat → Nat → List Char
  | 0, n => [digitChar (n % base)]
  | fuel + 1, n =>
    if n < base then [digitChar n] else digitsUpTo base fuel (n / base) ++ [digitChar (n % base)]

/-- The digits of `n` in a base of at least two. -/
def digits (base n : Nat) : List Char := digitsUpTo base n n

/-- The signed decimal spelling of R203. -/
def decimal : Int → List Char
  | .ofNat n => digits 10 n
  | .negSucc n => '-' :: digits 10 (n + 1)

/-- Every occurrence of the two characters `a`, `b` replaced by `c`, from the left (R203). -/
def replacePair (a b c : Char) : List Char → List Char
  | x :: y :: rest => if x = a ∧ y = b then c :: replacePair a b c rest else x :: replacePair a b c (y :: rest)
  | l => l

/-- The display string of a RETR reply, quirk included: per integer, `10` becomes a newline, then `32` a space
(R203, D29). -/
def displayText (values : List Int) : List Char :=
  values.flatMap fun v => replacePair '3' '2' ' ' (replacePair '1' '0' '\n' (decimal v))

/-- The comma-joined byte values of a sample record (R210 (a)), each in decimal (DESIGN CHOICE,
notes/assumptions/13.md). -/
def commaJoined (bytes : List Byte) : List Char := [','].intercalate (bytes.map fun b => digits 10 b.toNat)

/-- `offset_to_address` (R209, D23); `none` where the offset is negative. -/
def offsetToAddress (dataSize : Nat) (offset : Int) (base : Nat := sramBase) : Option (List Char) :=
  if offset < 0 then none
  else
    let hex := digits 16 (base + offset.toNat * dataSize)
    some (['0', 'x'] ++ List.replicate (8 - hex.length) '0' ++ hex)

/-- `floor(sram_size / DATA_SIZE)`, the number of regions of a device (R52, D25); a free value where `DATA_SIZE = 0`
(R10). -/
def regionCount (dataSize sramSize : Nat) : Nat :=
  if dataSize = 0 then Config.regionsOfEmptyPayload sramSize else sramSize / dataSize

end Sys2Proof.Machine
end

