-- ==== Sys2Proof/Machine/Ops.lean ====
section
/-! DEFINITION. The named operations over the state: the stream primitives (spec/00_scope.md R11), how a block
operation ends with a result or with an error outcome (spec/60_exceptions.md R220), the abort (R232) and the reset
event (spec/70_reset_and_hazards.md R250). The block has no addressable memory (spec/20_memory.md R50) and nothing to
return from after an error outcome (R220). -/

namespace Sys2Proof.Machine

/-- The outcome type of a step. -/
abbrev Out := Host.Outcome State Fault Refusal

/-- The code of an error outcome (R221). -/
def BlockError.code : BlockError → BitVec 4
  | .notCrafted => 1
  | .sizeMismatch _ _ => 2
  | .divideByZero _ => 3
  | .notPopulated _ => 4
  | .packetLocked => 5
  | .fieldUnset _ => 6
  | .badOperand _ => 7
  | .payloadTooShort _ => 8
  | .reservedOp _ => 9
  | .busy => 10
  | .aborted _ => 11

/-- The requester is given `r`; no element of the block changes. -/
def State.respond (s : State) (r : Response) : State := { s with resp := r }

/-- An operation ends with a result: `ST.err <- 0` (R220). -/
def State.finish (s : State) (v : Value) : State :=
  { s with st := { s.st with err := 0 }, resp := .ok v }

/-- `raise E(info)` (R220): the operation ends, `ST.err` takes the code, `ST.busy` is clear, the requester is given
the error; nothing else changes. -/
def State.raise (s : State) (e : BlockError) : State :=
  { s with st := { err := e.code, busy := false }, resp := .error e }

/-- A request is served when the block is not busy; otherwise it ends with `Busy` and changes nothing, not even
`ST.err` (R231, R235). -/
def State.serve (s : State) (run : State → State) : Out :=
  if s.st.busy then .next (s.respond (.error .busy)) else .next (run s)

/-- `CRC.acc <- v`. -/
def State.setCrc (s : State) (v : Half) : State := { s with crcAcc := v }

/-- `PKT <- p`. -/
def State.setPkt (s : State) (p : PacketRegister) : State := { s with pkt := p }

/-- `RX.fifo <- l`. -/
def State.setRx (s : State) (l : List Byte) : State := { s with rx := l }

/-- The transmit side takes the value `t`. -/
def State.setTx (s : State) (t : Transmitter) : State := { s with tx := t }

/-- `FR <- f`. -/
def State.setFr (s : State) (f : FrameReceiver) : State := { s with fr := f }

/-- `ST.busy <- b`. -/
def State.setBusy (s : State) (b : Bool) : State := { s with st := { s.st with busy := b } }

/-- The session takes the value `v`. -/
def State.setSes (s : State) (v : Session) : State := { s with ses := v }

/-- `RxLen()` (R11). -/
def State.rxLen (s : State) : Nat := s.rx.length

/-- `RxFlush()` (R11, R60). -/
def State.rxFlush (s : State) : State := s.setRx []

/-- `TxPush(b)` (R11, R31). -/
def State.txPush (s : State) (b : Byte) : State := s.setTx { s.tx with stream := s.tx.stream ++ [b] }

/-- The environment's step (R152): a byte joins the tail of `RX.fifo`. -/
def State.envPush (s : State) (b : Byte) : State := s.setRx (s.rx ++ [b])

/-- The next free value is used up. -/
def State.useFree (s : State) : State := { s with free := s.free + 1 }

/-- The running `SEND` or `RECEIVE_FRAMES` is left where it stands: what it has not pushed is never sent, `FR.phase`
is `Idle`, the other elements of `FR` keep what they hold (R232). -/
def State.leave (s : State) : State :=
  (s.setTx { s.tx with phase := .idle, todo := [] }).setFr { s.fr with phase := .idle }

/-- The phase recorded by an abort (R221). -/
def State.abortPhase (s : State) : AbortPhase :=
  if s.tx.phase = .idle then .receive s.fr.phase else .send s.tx.phase

/-- The block's side of an abort (R232); an operation of one step, or none, cannot be aborted. -/
def State.abort (s : State) : State :=
  if s.st.busy then s.leave.raise (.aborted s.abortPhase) else s

/-- The handler invocation ends with the outcome `o` (R191, R227, R234). -/
def State.endHandler (s : State) (o : HandlerOutcome) : State :=
  s.setSes { s.ses with plan := [], awaiting := none, multi := false, outcome := o }

/-- A running call is given up with the error `e`, which a handler in progress does not catch (R155, R223). -/
def State.giveUp (s : State) (e : BlockError) : State :=
  if s.ses.plan.isEmpty then s.leave.raise e else (s.leave.raise e).endHandler (.blockError e)

/-- The reset event (R250): every element takes its reset value; the parameters, what is still to arrive from outside
and the count of used free values stay. -/
def State.resetEvent (s : State) : State :=
  { State.resetWith s.cfg with script := s.script, beat := s.beat, free := s.free }

end Sys2Proof.Machine
end

