-- ==== Sys2Proof/Machine/Crc.lean ====
section
/-! DEFINITION. The CRC16 Engine (spec/40_crc16.md): the pure function and the operations `CRC16`, `CRC_INIT`,
`CRC_BYTE`, `CRC_READ`. -/

namespace Sys2Proof.Machine

/-- `crc_step` of R102 with the table `lut`. -/
def crcStep (lut : List Half) (c : Half) (b : Byte) : Half :=
  (c >>> 8) ^^^ lut.getD ((c ^^^ b.setWidth 16) &&& 0x00FF#16).toNat 0

/-- `crc16_fn` of R102: the left fold from `0x0000`. -/
def crc16Fn (lut : List Half) (buffer : List Byte) : Half := buffer.foldl (crcStep lut) 0

/-- One step of the bit-serial register of R103 and R104. -/
def polyStep (t : Half) : Half := if t.getLsbD 0 then (t >>> 1) ^^^ 0xA001#16 else t >>> 1

/-- Eight steps of the bit-serial register. -/
def polyByte (t : Half) : Half := polyStep (polyStep (polyStep (polyStep (polyStep (polyStep (polyStep (polyStep t)))))))

/-- `crc_step` in the bit-serial form of R104. -/
def crcStepSerial (c : Half) (b : Byte) : Half := polyByte (c ^^^ b.setWidth 16)

/-- `CRC16` (R101): the CRC of the buffer; `CRC.acc` is not touched. -/
def execCrc16 (buffer : List Byte) (s : State) : Out :=
  s.serve fun s => s.finish (.half (crc16Fn s.cfg.lut buffer))

/-- `CRC_INIT` (R105). -/
def execCrcInit (s : State) : Out :=
  s.serve fun s => (s.setCrc 0).finish .unit

/-- `CRC_BYTE` (R106). -/
def execCrcByte (b : Byte) (s : State) : Out :=
  s.serve fun s => (s.setCrc (crcStep s.cfg.lut s.crcAcc b)).finish .unit

/-- `CRC_READ` (R107): the accumulator, which stays. -/
def execCrcRead (s : State) : Out :=
  s.serve fun s => s.finish (.half s.crcAcc)

end Sys2Proof.Machine
end

