-- ==== Sys2Proof/Machine/Codec.lean ====
section
/-! DEFINITION. The Packet Codec (spec/41_codec.md): its pure functions and the operations from `PKT_CLEAR` to
`EXTRACT_SENSORS`. -/

namespace Sys2Proof.Machine

/-- `checksum_of` of R111: the CRC of the frame with its checksum slot zeroed. -/
def checksumOf (lut : List Half) (command pic : Byte) (options : Quad) (uid data : List Byte) : Half :=
  crc16Fn lut (serialize command pic options uid data 0)

/-- `decode_fn` of R122, used on buffers of `FRAME_SIZE` bytes only. -/
def decodeFn (dataSize : Nat) (raw : List Byte) : Packet where
  command := byteAt raw 0
  pic := byteAt raw 1
  options := le32 raw 2
  uid := slice raw 6 uidLen
  data := slice raw headerSize dataSize
  checksum := le16 raw (headerSize + dataSize)
  wire := raw

/-- `check_crc_fn` of R123: the CRC with the last two bytes zeroed against the value they hold. -/
def checkCrcFn (lut : List Half) (w : List Byte) : Bool :=
  crc16Fn lut (w.take (w.length - 2) ++ [0, 0]) == le16 w (w.length - 2)

/-- `serialize` of the fields of a packet with a checksum `k` (R111). -/
def Packet.serializeWith (p : Packet) (k : Half) : List Byte :=
  serialize p.command p.pic p.options p.uid p.data k

/-- `PKT` after `PKT_CLEAR` (R112): the flags fall, the data elements become unreadable. -/
def PacketRegister.clear (p : PacketRegister) : PacketRegister :=
  { p with written := 0, cksAssigned := false, crafted := false }

/-- `PKT_CLEAR` (R112). -/
def execPktClear (s : State) : Out :=
  s.serve fun s => (s.setPkt s.pkt.clear).finish .unit

/-- What the `SET_*` operations share (R126): `PacketLocked` on a crafted packet, else the new register with its
field's bit set. -/
def setField (s : State) (k : Nat) (p : PacketRegister) : State :=
  if s.pkt.crafted then s.raise .packetLocked else (s.setPkt (p.mark k)).finish .unit

/-- `SET_COMMAND` (R114). -/
def execSetCommand (c : Byte) (s : State) : Out :=
  s.serve fun s => setField s 0 { s.pkt with command := c }

/-- `SET_PIC` (R115). -/
def execSetPic (p : Byte) (s : State) : Out :=
  s.serve fun s => setField s 1 { s.pkt with pic := p }

/-- `SET_OPTIONS` (R116). -/
def execSetOptions (v : Quad) (s : State) : Out :=
  s.serve fun s => setField s 2 { s.pkt with options := v }

/-- A field whose operand has a length the operation refuses: `PacketLocked` stands before `BadOperand` (R235). -/
def setSized (s : State) (k : Nat) (fits : Bool) (length : Nat) (p : PacketRegister) : State :=
  if s.pkt.crafted then s.raise .packetLocked
  else if fits then setField s k p else s.raise (.badOperand length)

/-- `SET_UID` (R117): at most 25 bytes, padded with NUL. -/
def execSetUid (uid : List Byte) (s : State) : Out :=
  s.serve fun s => setSized s 3 (decide (uid.length ≤ uidLen)) uid.length { s.pkt with uid := uidField uid }

/-- `SET_DATA` (R118): exactly `DATA_SIZE` bytes. -/
def execSetData (payload : List Byte) (s : State) : Out :=
  s.serve fun s => setSized s 4 (payload.length == s.cfg.dataSize) payload.length { s.pkt with data := payload }

/-- The field of a packet with a number in 0 to 5 (R82, R119). -/
def Packet.field (p : Packet) (f : Nat) : Value :=
  match f with
  | 0 => .byte p.command
  | 1 => .byte p.pic
  | 2 => .quad p.options
  | 3 => .bytes p.uid
  | 4 => .bytes p.data
  | _ => .half p.checksum

/-- The field `f` in 0 to 5 holds a value (R27, R119). -/
def PacketRegister.readable (p : PacketRegister) (f : Nat) : Bool :=
  if f ≤ 4 then p.isWritten f else p.cksAssigned

/-- `GET_FIELD` (R119): every number from 6 on is reserved, whatever the width of the operand. -/
def execGetField (field : Byte) (s : State) : Out :=
  s.serve fun s =>
    if 6 ≤ field.toNat then s.raise (.reservedOp field.toNat)
    else if s.pkt.readable field.toNat then s.finish (s.pkt.toPacket.field field.toNat)
    else s.raise (.fieldUnset field.toNat)

/-- The checksum `CRAFT` leaves (R113): the one already assigned, else the CRC of the draft. -/
def craftChecksum (lut : List Half) (p : PacketRegister) : Half :=
  if p.cksAssigned then p.checksum else crc16Fn lut (p.serializeWith 0)

/-- `PKT` after `CRAFT` of a fully populated packet (R113). -/
def PacketRegister.craftWith (p : PacketRegister) (k : Half) : PacketRegister :=
  { p with checksum := k, cksAssigned := true, wire := p.serializeWith k, crafted := true }

/-- `CRAFT` (R113). -/
def execCraft (s : State) : Out :=
  s.serve fun s =>
    if s.pkt.crafted then s.finish .unit
    else if s.pkt.full then (s.setPkt (s.pkt.craftWith (craftChecksum s.cfg.lut s.pkt))).finish .unit
    else s.raise (.notPopulated s.pkt.written)

/-- `TO_BYTES` (R121). -/
def execToBytes (s : State) : Out :=
  s.serve fun s => if s.pkt.crafted then s.finish (.bytes s.pkt.wire) else s.raise .notCrafted

/-- `PKT` after `DECODE` of a buffer of `FRAME_SIZE` bytes (R120). -/
def decodedRegister (dataSize : Nat) (raw : List Byte) : PacketRegister :=
  { decodeFn dataSize raw with written := 0b11111, cksAssigned := true, crafted := true }

/-- `DECODE` (R120). -/
def execDecode (raw : List Byte) (s : State) : Out :=
  s.serve fun s =>
    if raw.length = s.cfg.frameLen then (s.setPkt (decodedRegister s.cfg.dataSize raw)).finish .unit
    else s.raise (.sizeMismatch raw.length s.cfg.frameLen)

/-- `CHECK_CRC` (R123): a mismatch is a result. -/
def execCheckCrc (s : State) : Out :=
  s.serve fun s =>
    if s.pkt.crafted then s.finish (.bit (checkCrcFn s.cfg.lut s.pkt.wire)) else s.raise .notCrafted

/-- `EXPECTED_SIZE` (R124). -/
def execExpectedSize (s : State) : Out :=
  s.serve fun s => s.finish (.nat (1 + 1 + 4 + 25 + s.cfg.dataSize + 2))

/-- `EXTRACT_SENSORS` (R125), its checks in the order of R235. -/
def execExtractSensors (s : State) : Out :=
  s.serve fun s =>
    if s.pkt.isWritten 4 then
      if s.cfg.dataSize < 10 then s.raise (.payloadTooShort s.cfg.dataSize)
      else
        match zeroDivisor (sensorWords s.pkt.data) with
        | some which => s.raise (.divideByZero which)
        | none =>
          s.finish (.sensors (temperatureE5 (sensorWords s.pkt.data)) (voltageE5 (sensorWords s.pkt.data)))
    else s.raise (.fieldUnset 4)

end Sys2Proof.Machine
end

