-- ==== Sys2Proof/Machine/Transport.lean ====
section
/-! DEFINITION. The Transport Channel's send path and the Frame Receiver (spec/42_transport_framer.md): the
operations `SEND` and `RECEIVE_FRAMES`, and the steps each takes after it is accepted. -/

namespace Sys2Proof.Machine

/-- The transmit side once `SEND w` is accepted (R141 S0). -/
def Transmitter.start (t : Transmitter) (w : List Byte) : Transmitter := { t with phase := .push, todo := w }

/-- `SEND` (R141 S0): `ST.busy <- 1` and the input flush; the steps S1 to S4 follow one at a time. -/
def execSend (bytes : List Byte) (s : State) : Out :=
  s.serve fun s => (((s.setBusy true).rxFlush).setTx (s.tx.start bytes)).respond .pending

/-- S1 for one byte (R141). -/
def sendPush (b : Byte) (rest : List Byte) (s : State) : State :=
  (s.txPush b).setTx { (s.txPush b).tx with todo := rest }

/-- One step of a running `SEND` (R141): S1 for each byte, S2 when none is left, S3 the settle delay, S4. -/
def sendStep (s : State) : State :=
  match s.tx.phase with
  | .idle => s
  | .push =>
    match s.tx.todo with
    | b :: rest => sendPush b rest s
    | [] => s.setTx { s.tx with phase := .settle }
  | .settle => s.setTx { s.tx with phase := .done }
  | .done => ((s.setTx { s.tx with phase := .idle }).setBusy false).finish .unit

/-- The Frame Receiver once `RECEIVE_FRAMES` is accepted (R145). -/
def FrameReceiver.start (timeout maxTries : Nat) : FrameReceiver where
  phase := .initWait
  iter := 0
  maxTries := maxTries
  timeout := timeout
  hist := []
  buf := []
  packets := []
  crcOk := []

/-- `RECEIVE_FRAMES` (R143, R145 F0): `RX.fifo` is not flushed; the steps F1 to F6 follow one at a time. -/
def execReceiveFrames (timeout maxTries : Nat) (s : State) : Out :=
  s.serve fun s => ((s.setBusy true).setFr (.start timeout maxTries)).respond .pending

/-- F2 (R147): the budget is exhausted, or the count of available bytes is sampled. -/
def receiveSample (s : State) : State :=
  if s.fr.iter = s.fr.maxTries then s.setFr { s.fr with phase := .done }
  else s.setFr { s.fr with hist := (s.rxLen :: s.fr.hist).take s.fr.histCap, phase := .drain }

/-- The Frame Receiver once a byte has joined its buffer, giving the new buffer (R148): a full frame becomes a
packet with its check bit. -/
def FrameReceiver.absorb (f : FrameReceiver) (c : Config) (buf : List Byte) : FrameReceiver :=
  if buf.length = c.frameLen then
    { f with packets := f.packets ++ [decodeFn c.dataSize buf], crcOk := f.crcOk ++ [checkCrcFn c.lut buf], buf := [] }
  else { f with buf := buf }

/-- F3 (R148): the head byte of `RX.fifo` is popped into the buffer. A buffer past `FRAME_SIZE`, which R155 rules
out, abandons the call with `SizeMismatch` (R155, U18). -/
def receiveByte (b : Byte) (rest : List Byte) (s : State) : State :=
  if (s.fr.buf ++ [b]).length ≤ s.cfg.frameLen then
    (s.setRx rest).setFr (s.fr.absorb s.cfg (s.fr.buf ++ [b]))
  else (s.setRx rest).giveUp (.sizeMismatch (s.fr.buf ++ [b]).length s.cfg.frameLen)

/-- F4 (R149): the iteration is counted, then the quiescence test. -/
def receiveEndDrain (s : State) : State :=
  s.setFr { s.fr with iter := s.fr.iter + 1, phase := if s.fr.quiet then .done else .sleep }

/-- F6 (R151): the result is delivered and a partial frame discarded. -/
def receiveDone (s : State) : State :=
  ((s.setFr { s.fr with buf := [], phase := .idle }).setBusy false).finish (.frames (s.fr.packets.zip s.fr.crcOk))

/-- One step of a running `RECEIVE_FRAMES`: F1 to F6 (R146 to R151). -/
def receiveStep (s : State) : State :=
  match s.fr.phase with
  | .idle => s
  | .initWait => s.setFr { s.fr with phase := .sample }
  | .sample => receiveSample s
  | .drain =>
    match s.rx with
    | b :: rest => receiveByte b rest s
    | [] => receiveEndDrain s
  | .sleep => s.setFr { s.fr with phase := .sample }
  | .done => receiveDone s

end Sys2Proof.Machine
end

