-- ==== Sys2Proof/Machine/Exchange.lean ====
section
/-! DEFINITION. What the session's handlers share (spec/44_session.md): device references, how a handler ends or goes
on, the exchange of R192, the reading of one reply (R205) and the records of R210. -/

namespace Sys2Proof.Machine

/-- A unit of work is over: the handler goes on, or ends well when nothing is left. -/
def State.goOn (s : State) : State :=
  if s.ses.plan.isEmpty then s.endHandler .ok else s.setSes { s.ses with awaiting := none }

/-- One emission to the logging sink (R210 (b)). -/
def State.emit (s : State) (level : LogLevel) (e : LogEntry) : State :=
  s.setSes { s.ses with log := s.ses.log ++ [⟨level, e⟩] }

/-- The session's remaining work becomes `plan`. -/
def State.setPlan (s : State) (plan : List Task) : State := s.setSes { s.ses with plan := plan }

/-- The known device with an identity `(uid, pic)` (R40). -/
def Session.device (v : Session) (uid : List Byte) (pic : Byte) : Option Device :=
  v.devices.find? fun d => d.uid == uid && d.pic == pic

/-- The first known device with a UID (R191). -/
def Session.deviceByUid (v : Session) (uid : List Byte) : Option Device :=
  v.devices.find? fun d => d.uid == uid

/-- The regions of a device (R52). -/
def State.regions (s : State) (d : Device) : Nat := regionCount s.cfg.dataSize d.sramSize

/-- A PING, READ or SENSORS exchange, or an exchange of a sweeping handler, is no single-target command (R227). -/
def Purpose.sweeps : Purpose → Bool
  | .ping | .read _ _ | .sensors _ => true
  | .write _ _ | .load _ | .exec _ | .retr _ => false

/-- No reply, CRC failure or device error (R226, R227): logged and the unit skipped, or, for a single-target command,
logged and the whole handler fails with a command error. R179 says logged of every unit, R227 and U19 say command error
of the single-target one: that both happen there is read from the two together (DEDUCED, notes/assumptions/30.md). -/
def State.skipOrFail (s : State) (p : Purpose) (why : CommandError) : State :=
  if p.sweeps || s.ses.multi then (s.emit .warning (.skipped p why)).goOn
  else (s.emit .error (.failed p why)).endHandler (.commandError why)

/-- The block operations of one exchange (R192); `CRAFT` computes the checksum, so the frame's own is not used. -/
def exchangeTasks (command : Byte) (f : FrameBody) (b : Budget) (p : Purpose) : List Task :=
  [.op .pktClear, .op (.setCommand command), .op (.setPic f.pic), .op (.setOptions f.options), .op (.setUid f.uid),
   .op (.setData f.data), .op .craft, .wire, .op (.receiveFrames b.timeout b.maxTries), .consult p]

/-- The session begins one exchange; what was left to do comes after it. -/
def State.beginExchange (s : State) (command : Byte) (f : FrameBody) (p : Purpose) : State :=
  s.setSes { s.ses with
    plan := exchangeTasks command f (s.cfg.budgetOf command) p ++ s.ses.plan, outcome := .running }

/-- The device a frame names by its `uid` and `pic` (R170, D24). -/
def State.target (s : State) (f : FrameBody) : Option Device := s.ses.device (uidString f.uid) f.pic

/-- The command error where the named device is not known: a command of a sweeping handler asks first that some device
is (R195, R228). -/
def State.absent (s : State) (sweeps : Bool) (uid : List Byte) : CommandError :=
  if sweeps && s.ses.devices.isEmpty then .noDevices else .unknownDevice uid

/-- The preconditions of a command that names a device, in the order of R191 and R235: the channel is on, and the
device is known (R228). -/
def State.withDevice (s : State) (found : Option Device) (absent : CommandError) (k : Device → State) : State :=
  if s.ses.chanOn then
    match found with
    | some d => k d
    | none => s.endHandler (.commandError absent)
  else s.endHandler (.commandError .channelOff)

/-- A packet command as a request to the device it names (R170). -/
def State.requestTo (s : State) (command : Byte) (sweeps : Bool) (f : FrameBody) (p : Device → Purpose) : State :=
  s.withDevice (s.target f) (s.absent sweeps (uidString f.uid)) fun d => s.beginExchange command f (p d)

/-- A record is inserted into the sink (R210 (a)); its board type is a free value. -/
def State.insert (s : State) (uid : List Byte) (body : RecordBody) : State :=
  (s.setSes { s.ses with sink :=
    { s.ses.sink with
      pending := s.ses.sink.pending ++ [{ boardType := Config.boardType s.free, uid := uid, body := body }] } }).useFree

/-- The sink's `commit()` (R210 (a)). -/
def State.commit (s : State) : State :=
  s.setSes { s.ses with sink := { pending := [], stored := s.ses.sink.stored ++ s.ses.sink.pending } }

/-- How many records the sink has been given: the next record's place in capture order. -/
def Sink.captures (v : Sink) : Nat := v.stored.length + v.pending.length

/-- The sample record of region `k` of the device `d` (R195, R210). -/
def State.sampleBody (s : State) (d : Device) (k : Nat) (data : List Byte) : RecordBody :=
  .sample
    { pic := d.pic
      address := (offsetToAddress s.cfg.dataSize k).getD []
      values := commaJoined data
      timestamp := s.ses.sink.captures
      offset := k
      bytes := data }

/-- A good reply `f` under the exchange's reading `p`: R195 for READ, R198 for WRITE, R200 for LOAD, R201 for EXEC,
R202 and R203 for RETR, R204 for SENSORS, whose record is that of the reply's own `uid` (R175). The reply's command is
not looked at (R205 has excluded ERR and the reserved values). A READ inserts its sample under the UID and position of the
device it asked, not those of the reply (DESIGN CHOICE, notes/assumptions/35.md), and leaves the commit to the sweep it is
part of; the sample of a READ frame asked for alone stays pending until a later commit (DESIGN CHOICE,
notes/assumptions/28.md). -/
def State.acceptReply (s : State) (command : Byte) (f : FrameBody) (p : Purpose) : State :=
  match p with
  | .ping | .write _ _ | .load _ => s.goOn
  | .read d k => (s.insert d.uid (s.sampleBody d k f.data)).goOn
  | .exec _ => if f.options = 0 then s.goOn else s.endHandler (.executionError f.options)
  | .retr _ =>
    (s.emit .results (.display (displayText (retrIntegers f.data)))).endHandler
      (.integers (retrIntegers f.data) (displayText (retrIntegers f.data)))
  | .sensors _ =>
    s.setSes { s.ses with
      awaiting := none
      plan := .op (.decode (frameBytes command f)) :: .extract (uidString f.uid) :: s.ses.plan }

/-- A packet command in the session: while an exchange awaits its reply it is that reply, otherwise it is a request
(R72: one frame format for both). -/
def State.packetCommand (s : State) (request : State → State) (reply : Purpose → State → State) : Out :=
  s.serve fun s =>
    match s.ses.awaiting with
    | some p => reply p s
    | none => request s

end Sys2Proof.Machine
end

