-- ==== Sys2Proof/Machine/Commands.lean ====
section
/-! DEFINITION. The nine packet commands (spec/43_packet_commands.md) as the session gives them meaning: as a request,
the handler's exchange with its preconditions; as a reply, the reading of the exchange that awaits it. -/

namespace Sys2Proof.Machine

/-- ACK (R171): a reply. The host never sends one; outside an exchange it is an extra frame and is discarded
(R205). -/
def execAck (f : FrameBody) (s : State) : Out :=
  s.packetCommand id fun p s => s.acceptReply 0x01 f p

/-- PING (R172, R193): the channel must be on; the replies are read by the PING handler as a list. -/
def execPing (f : FrameBody) (s : State) : Out :=
  s.packetCommand
    (fun s => if s.ses.chanOn then s.beginExchange 0x02 f .ping else s.endHandler (.commandError .channelOff))
    fun p s => s.acceptReply 0x02 f p

/-- READ (R173, R195): the region offset is `options`. The sweep asks for offsets below the region count only; a READ
frame asked for alone is sent whatever its offset, since the spec names no check and no error for it (DESIGN CHOICE,
notes/assumptions/27.md). -/
def execRead (f : FrameBody) (s : State) : Out :=
  s.packetCommand (fun s => s.requestTo 0x03 true f fun d => .read d f.options.toNat)
    fun p s => s.acceptReply 0x03 f p

/-- WRITE (R174, R197, R198): an offset up to and including the region count is let through; the WRITEs of
WRITE_INVERT, the one multi-target handler that has any, are not checked (R199). -/
def execWrite (f : FrameBody) (s : State) : Out :=
  s.packetCommand
    (fun s =>
      s.withDevice (s.target f) (s.absent false (uidString f.uid)) fun d =>
        if s.ses.multi = true ∨ f.options.toNat ≤ s.regions d then s.beginExchange 0x04 f (.write d f.options.toNat)
        else s.endHandler (.commandError (.offsetRange f.options.toNat (s.regions d))))
    fun p s => s.acceptReply 0x04 f p

/-- SENSORS (R175, R204). -/
def execSensors (f : FrameBody) (s : State) : Out :=
  s.packetCommand (fun s => s.requestTo 0x05 true f .sensors) fun p s => s.acceptReply 0x05 f p

/-- LOAD (R176, R200): the payload is the source text. -/
def execLoad (f : FrameBody) (s : State) : Out :=
  s.packetCommand (fun s => s.requestTo 0x06 false f .load) fun p s => s.acceptReply 0x06 f p

/-- EXEC (R177, R201): `options` is the reset flag of a request and the error code of a reply. -/
def execExec (f : FrameBody) (s : State) : Out :=
  s.packetCommand (fun s => s.requestTo 0x07 false f .exec) fun p s => s.acceptReply 0x07 f p

/-- RETR (R178, R202). -/
def execRetr (f : FrameBody) (s : State) : Out :=
  s.packetCommand (fun s => s.requestTo 0x08 false f .retr) fun p s => s.acceptReply 0x08 f p

/-- ERR (R179): a device's refusal, the outcome *device error* of R205; the host never sends one, and outside an
exchange it is an extra frame and is discarded. -/
def execErr (_ : FrameBody) (s : State) : Out :=
  s.packetCommand id fun p s => s.skipOrFail p (.deviceError 0xFF)

end Sys2Proof.Machine
end

