-- ==== Sys2Proof/Machine/Dispatch.lean ====
section
/-! DEFINITION. One arm per instruction. -/

namespace Sys2Proof.Machine

def exec (i : Instr) (s : State) : Host.Outcome State Fault Refusal :=
  match i with
  | .ack f => Sys2Proof.Machine.execAck f s
  | .ping f => Sys2Proof.Machine.execPing f s
  | .read f => Sys2Proof.Machine.execRead f s
  | .write f => Sys2Proof.Machine.execWrite f s
  | .sensors f => Sys2Proof.Machine.execSensors f s
  | .load f => Sys2Proof.Machine.execLoad f s
  | .exec f => Sys2Proof.Machine.execExec f s
  | .retr f => Sys2Proof.Machine.execRetr f s
  | .err f => Sys2Proof.Machine.execErr f s
  | .crc16 buffer => Sys2Proof.Machine.execCrc16 buffer s
  | .crcInit => Sys2Proof.Machine.execCrcInit s
  | .crcByte b => Sys2Proof.Machine.execCrcByte b s
  | .crcRead => Sys2Proof.Machine.execCrcRead s
  | .pktClear => Sys2Proof.Machine.execPktClear s
  | .setCommand c => Sys2Proof.Machine.execSetCommand c s
  | .setPic p => Sys2Proof.Machine.execSetPic p s
  | .setOptions v => Sys2Proof.Machine.execSetOptions v s
  | .setUid uid => Sys2Proof.Machine.execSetUid uid s
  | .setData payload => Sys2Proof.Machine.execSetData payload s
  | .getField field => Sys2Proof.Machine.execGetField field s
  | .craft => Sys2Proof.Machine.execCraft s
  | .toBytes => Sys2Proof.Machine.execToBytes s
  | .decode raw => Sys2Proof.Machine.execDecode raw s
  | .checkCrc => Sys2Proof.Machine.execCheckCrc s
  | .expectedSize => Sys2Proof.Machine.execExpectedSize s
  | .extractSensors => Sys2Proof.Machine.execExtractSensors s
  | .send bytes => Sys2Proof.Machine.execSend bytes s
  | .receiveFrames timeout maxTries => Sys2Proof.Machine.execReceiveFrames timeout maxTries s

end Sys2Proof.Machine
end

