-- ==== Sys2Proof/Machine/Session.lean ====
section
/-! DEFINITION. The Device Chain Session (spec/44_session.md): the handler invocations with their preconditions and
the work they lay out, and the session's own steps through that work. -/

namespace Sys2Proof.Machine

/-- A request frame to the device `d` with the given `options` and payload; the fields no rule mentions are zero
(R170, D24). -/
def requestBody (d : Device) (options : Quad) (payload : List Byte) : FrameBody where
  pic := d.pic
  options := options
  uid := uidField d.uid
  data := payload
  checksum := 0

/-- The PING request (D24): all fields zero. -/
def pingBody (dataSize : Nat) : FrameBody where
  pic := 0
  options := 0
  uid := zeros uidLen
  data := zeros dataSize
  checksum := 0

/-- The handler's work begins; a handler with nothing to do ends at once (R199: an empty interval). -/
def State.beginHandler (s : State) (multi : Bool) (plan : List Task) : State :=
  (s.setSes { s.ses with plan := plan, awaiting := none, multi := multi, outcome := .running }).goOn

/-- The preconditions of a handler that sweeps the device list: channel on, some device known (R191, R228). -/
def State.withDevices (s : State) (k : List Device → State) : State :=
  if s.ses.chanOn then
    if s.ses.devices.isEmpty then s.endHandler (.commandError .noDevices) else k s.ses.devices
  else s.endHandler (.commandError .channelOff)

/-- The preconditions of a handler that names a device by its UID (R191, R228). -/
def State.withUid (s : State) (uid : List Byte) (k : Device → State) : State :=
  s.withDevice (s.ses.deviceByUid uid) (.unknownDevice uid) k

/-- READ of one device: a READ for every region offset in order, then one commit (R195). -/
def readWork (dataSize regions : Nat) (d : Device) : List Task :=
  (List.range regions).map (fun k => .command (.read (requestBody d (BitVec.ofNat 32 k) (zeros dataSize))))
    ++ [.commit]

/-- A stored sample's place in the order of R199: the address first. -/
def Record.offset (r : Record) : Nat :=
  match r.body with
  | .sample m => m.offset
  | .sensor _ _ => 0

/-- The bytes of a stored sample. -/
def Record.bytes (r : Record) : List Byte :=
  match r.body with
  | .sample m => m.bytes
  | .sensor _ _ => []

/-- The record is a sample of the device `d` (R199). -/
def Record.isSampleOf (r : Record) (d : Device) : Bool :=
  match r.body with
  | .sample m => r.uid == d.uid && m.pic == d.pic
  | .sensor _ _ => false

/-- `r` takes its place by address, before the later captures of the same address. -/
def insertSample (r : Record) : List Record → List Record
  | [] => [r]
  | q :: rest => if r.offset ≤ q.offset then r :: q :: rest else q :: insertSample r rest

/-- The stored samples of a device, ordered by address, then capture time (R199): all of them, of however many sweeps. How
the samples of several sweeps are told apart is not in the source (N35; DESIGN CHOICE, notes/assumptions/33.md). -/
def storedSamples (stored : List Record) (d : Device) : List Record :=
  (stored.filter (·.isSampleOf d)).foldr insertSample []

/-- WRITE_INVERT of one device with `n` regions (R199, C4): the offsets `5 .. n - 6`, each with the inverted bytes of
its sample. The sample of offset `k` is entry `k` of the ordered list, whatever offset the record itself holds (DESIGN
CHOICE, notes/assumptions/33.md). -/
def invertWork (n : Nat) (samples : List Record) (d : Device) : List Task :=
  (List.range (n - 2 * readOnlyRegions)).map fun j =>
    .command (.write (requestBody d (BitVec.ofNat 32 (readOnlyRegions + j))
      (((samples.map (·.bytes)).getD (readOnlyRegions + j) []).map (· ^^^ 0xFF))))

/-- WRITE_INVERT of one device, at its turn (R199): its WRITEs come next; a device without exactly `n` stored samples is
skipped with a warning. -/
def State.invertDevice (s : State) (d : Device) : State :=
  let samples := storedSamples s.ses.sink.stored d
  if samples.length = s.regions d then (s.setPlan (invertWork (s.regions d) samples d ++ s.ses.plan)).goOn
  else (s.emit .warning (.samplesIncomplete d samples.length (s.regions d))).goOn

/-- A handler invocation (R193 to R206): its preconditions, before any I/O, then its work. The power handlers touch the
session's flag alone: that every element of the block survives a power-off is open in R244 and the model's choice
(DESIGN CHOICE, notes/assumptions/29.md). -/
def State.invoke (s : State) (h : Handler) : State :=
  match h with
  | .ping =>
    if s.ses.chanOn then s.beginHandler false [.command (.ping (pingBody s.cfg.dataSize))]
    else s.endHandler (.commandError .channelOff)
  | .read => s.withDevices fun ds => s.beginHandler true (ds.flatMap fun d => readWork s.cfg.dataSize (s.regions d) d)
  | .write uid offset payload =>
    s.withUid uid fun d =>
      if 0 ≤ offset ∧ offset ≤ s.regions d then
        s.beginHandler false [.command (.write (requestBody d (BitVec.ofInt 32 offset) payload))]
      else s.endHandler (.commandError (.offsetRange offset (s.regions d)))
  | .writeInvert => s.withDevices fun ds => s.beginHandler true ((ds.take (ds.length / 2)).map .invert)
  | .load uid source =>
    s.withUid uid fun d =>
      if source.length ≤ s.cfg.dataSize then
        s.beginHandler false [.command (.load (requestBody d 0 (loadPayload s.cfg.dataSize source)))]
      else s.endHandler (.commandError (.sourceTooLong source.length))
  | .exec uid flag =>
    s.withUid uid fun d =>
      s.beginHandler false [.command (.exec (requestBody d (flag.getD 0) (zeros s.cfg.dataSize)))]
  | .retr uid =>
    s.withUid uid fun d => s.beginHandler false [.command (.retr (requestBody d 0 (zeros s.cfg.dataSize)))]
  | .sensors =>
    s.withDevices fun ds =>
      s.beginHandler true (ds.map fun d => .command (.sensors (requestBody d 0 (zeros s.cfg.dataSize))))
  | .powerOn => (s.setSes { s.ses with chanOn := true }).endHandler .ok
  | .powerOff =>
    if s.ses.chanOn then (s.setSes { s.ses with chanOn := false }).endHandler .ok
    else s.endHandler (.commandError .channelOff)
  | .status => s.endHandler (.status s.ses.chanOn)

/-- The replies of the last `RECEIVE_FRAMES`, each with its check bit (R151). -/
def State.replies (s : State) : List (Packet × Bool) := s.fr.packets.zip s.fr.crcOk

/-- The Device a CRC-valid PING reply makes known (R193). -/
def Packet.device (p : Packet) : Device where
  uid := uidString p.uid
  pic := p.pic
  sramSize := p.options.toNat

/-- The packet is an ERR or carries a reserved command: the protocol errors of R226 beside the CRC mismatch. -/
def Packet.isErrorReply (p : Packet) : Bool := p.command == 0xFF || !cmdKnown p.command

/-- The device list a PING builds: the CRC-valid replies in order (R193), without those that are an ERR or carry a reserved
command, whose unit of work is skipped (R179, R180, R226). That these rules stand before the list R193 writes down is
DEDUCED (notes/assumptions/34.md). -/
def chainOf (replies : List (Packet × Bool)) : List Device :=
  (replies.filter fun r => r.2 && !r.1.isErrorReply).map (·.1.device)

/-- The warning for one reply frame of a PING: a corrupted frame is dropped (R193), whatever its command (R235); a
CRC-valid ERR or reserved command is logged and skipped (R179, R180, R226; notes/assumptions/34.md). -/
def pingWarning (r : Packet × Bool) : Option LogLine :=
  if r.2 then if r.1.isErrorReply then some ⟨.warning, .errorReply r.1⟩ else none
  else some ⟨.warning, .frameDropped r.1⟩

/-- The device list is replaced as a whole (R194). -/
def State.setChain (s : State) (devices : List Device) : State := s.setSes { s.ses with devices := devices }

/-- The end of PING (R193, R194, R226, R238). -/
def State.finishPing (s : State) : State :=
  let logged := s.setSes { s.ses with log := s.ses.log ++ s.replies.filterMap pingWarning }
  if (chainOf s.replies).isEmpty then
    if s.ses.devices.isEmpty then logged.useFree.endHandler (.emptyChain (Config.emptyChainReported s.free))
    else logged.endHandler .hardError
  else ((logged.emit .informational (.chain (chainOf s.replies))).setChain (chainOf s.replies)).goOn

/-- The session reads one reply (R205, R235): CRC failure, then a reserved command; any other packet is run as the packet
command it is. -/
def State.readReply (s : State) (p : Purpose) (q : Packet) (ok : Bool) : Out :=
  if ok then
    match decodeFrame s.cfg.dataSize q.wire with
    | .ok i => exec i (s.setSes { s.ses with awaiting := some p })
    | .error _ => .next (s.skipOrFail p (.deviceError q.command))
  else .next (s.skipOrFail p .crcFailure)

/-- What an exchange does with the replies after the first: SENSORS reads each of them (R204), every other exchange
discards them (R205). How many a SENSORS exchange expects is not stated (R180); that a bad one is skipped like any other
is the model's choice (DESIGN CHOICE, notes/assumptions/14.md). -/
def laterReplies (p : Purpose) (more : List (Packet × Bool)) : List Task :=
  match p with
  | .sensors _ => more.map fun r => .reply p r.1 r.2
  | _ => []

/-- The session looks at the replies: PING at the whole list (R193), every other exchange at the first packet: no reply,
or the reading of that packet (R205). -/
def State.consult (s : State) (p : Purpose) : Out :=
  if p = .ping then .next s.finishPing
  else
    match s.replies with
    | [] => .next (s.skipOrFail p .noReply)
    | r :: more => (s.setPlan (laterReplies p more ++ s.ses.plan)).readReply p r.1 r.2

/-- What the session does with the response to a block operation it has requested: an error is not caught and ends the
handler (R223, R234). -/
def afterRequest (out : Out) (k : Value → State → State) : Out :=
  match out with
  | .next s =>
    match s.resp with
    | .error e => .next (s.endHandler (.blockError e))
    | .ok v => .next (k v s)
    | .pending => .next s
    | .none => .next s
  | .fault f => .fault f
  | .refused r => .refused r

/-- `SEND w` follows `TO_BYTES -> w` (R192). -/
def sendNext (v : Value) (s : State) : State :=
  match v with
  | .bytes w => s.setPlan (.op (.send w) :: s.ses.plan)
  | _ => s

/-- The sensor record of a SENSORS reply, under the UID the reply carries (R175, R204, R210). -/
def insertSensors (uid : List Byte) (v : Value) (s : State) : State :=
  match v with
  | .sensors t u => (s.insert uid (.sensor t u)).goOn
  | _ => s

/-- The session does one entry of its work, already taken off its list. -/
def State.runTask (s : State) (t : Task) : Out :=
  match t with
  | .command i => exec i s
  | .op i => afterRequest (exec i s) fun _ s => s
  | .wire => afterRequest (exec .toBytes s) sendNext
  | .consult p => s.consult p
  | .reply p q ok => s.readReply p q ok
  | .extract uid => afterRequest (exec .extractSensors s) (insertSensors uid)
  | .invert d => .next (s.invertDevice d)
  | .commit => .next s.commit.goOn

end Sys2Proof.Machine
end

