-- ==== Sys2Proof/Machine/Sequencer.lean ====
section
/-! DEFINITION. Who moves next (spec/10_state.md R21): what arrives from outside and how it is fetched and decoded,
and the step of the agents inside. -/

namespace Sys2Proof.Machine

/-- The agents inside move: a running `SEND` or `RECEIVE_FRAMES` takes its next step, a sleep among them ends (R21,
D15); with the block idle the session does the next entry of its work; with nothing to do the state stays. -/
def State.advance (s : State) : Out :=
  if s.tx.phase ≠ .idle then .next (sendStep s)
  else if s.fr.phase ≠ .idle then .next (receiveStep s)
  else
    match s.ses.plan with
    | [] => .next s
    | t :: rest => (s.setPlan rest).runTask t

/-- A request arrives at the port (R82, R83, R235): `Busy` first, then a reserved code, then the operation. Bytes that
carry no operation code, or no operand of the type R82 gives the operation, are no request of the spec: nothing is
requested, and nothing changes (DESIGN CHOICE, notes/assumptions/8.md). -/
def State.serveRequest (s : State) (bytes : List Byte) : Out :=
  match decodeRequest bytes with
  | .ok i => exec i s
  | .error (.reservedOp code) => s.serve fun s => s.raise (.reservedOp code.toNat)
  | .error _ => .next s

/-- The session is given a packet command as a frame: a buffer of the wrong length is the hard error `SizeMismatch`
(R223, R86), a reserved command value a command error (R180). -/
def State.serveCommand (s : State) (bytes : List Byte) : Out :=
  match decodeFrame s.cfg.dataSize bytes with
  | .ok i => exec i s
  | .error (.reservedCommand c) => s.serve fun s => s.endHandler (.commandError (.reservedCommand c))
  | .error _ => s.serve fun s => s.endHandler (.blockError (.sizeMismatch bytes.length s.cfg.frameLen))

/-- The dispatcher's alarm (R212, R232): the running operation is aborted, and the running handler, if any, ends with
the timeout fault. What the handler has inserted and not committed stays pending, for a later commit to store: any cleanup
is not in the source (N39; DESIGN CHOICE, notes/assumptions/32.md). -/
def State.alarm (s : State) : State :=
  if s.ses.plan.isEmpty then s.abort else s.abort.endHandler .timeoutFault

/-- What waits while a handler has work left: one command is fully processed before the next begins, and no other sender
comes between the parts of an exchange (R21, R63). A packet command or handler waits until that handler has ended; a
request waits only while the block is idle, and as soon as an operation runs it is turned away with `Busy` (R231), one
that has waited too (DESIGN CHOICE, notes/assumptions/31.md). -/
def State.defers (s : State) : Input → Bool
  | .command _ | .handler _ => !s.ses.plan.isEmpty
  | .request _ => !s.ses.plan.isEmpty && !s.st.busy
  | .turn | .push _ | .alarm | .reset => false

/-- One entry of the schedule, already taken off it, takes effect. While an operation runs that the host itself has
requested, no handler has work left: a handler invocation is then taken at once and its block operations wait for the
block, and a packet command is turned away with `Busy` (DESIGN CHOICE, notes/assumptions/31.md). -/
def State.deliver (s : State) (i : Input) : Out :=
  match i with
  | .turn => s.advance
  | .push b => .next (s.envPush b)
  | .request bytes => s.serveRequest bytes
  | .command bytes => s.serveCommand bytes
  | .handler h => .next (s.invoke h)
  | .alarm => .next s.alarm
  | .reset => .next s.resetEvent

/-- What is to come: the rest of the schedule, and after it the beat and a turn, which begin again when they are over. So
a turn comes again and again, and every sleep ends (R21, R268); there is always something to come. -/
def State.upcoming (s : State) : List Input :=
  match s.script with
  | [] => s.beat ++ [.turn]
  | i :: rest => i :: rest

/-- The next entry of the schedule, or the agents inside where it has to wait. -/
def State.runNext (s : State) : Out :=
  match s.upcoming with
  | [] => s.advance
  | i :: rest => if s.defers i then s.advance else State.deliver { s with script := rest } i

/-- The input by which the instruction of a table word reaches the machine (Decode.lean's `tableBytes`). -/
def tableInput (dataSize nbits w : Nat) : Input :=
  match tableBytes dataSize nbits w with
  | (.operation, bytes) => .request bytes
  | (.frame, bytes) => .command bytes

end Sys2Proof.Machine
end

