-- ==== Sys2Proof/Machine/Step.lean ====
section
/-! DEFINITION. The step, and where it fetches its next instruction. -/

namespace Sys2Proof.Machine

/-- One step of the machine: the next entry of the schedule takes effect, or the agents inside move (R21, R22). -/
def step (s : State) : Host.Outcome State Fault Refusal := s.runNext

/-- The state with an instruction of spec/opcode_table.json next on its schedule: a block operation as a request, a
packet command as a frame given to the session. The session has then no other work, since a handler's remaining work
would keep either waiting. -/
def State.withFetchWord (s : State) (nbits w : Nat) : State :=
  { s with
    ses := { s.ses with plan := [], awaiting := none }
    script := tableInput s.cfg.dataSize nbits w :: s.script }

end Sys2Proof.Machine
end

