-- ==== Sys2Proof/Safety.lean ====
section
/-! DEFINITION. What a good state is, in the terms claims use: the invariants the spec states of the machine
(spec/10_state.md R28, R29, R33 to R36, spec/42_transport_framer.md R155). -/

namespace Sys2Proof.Machine

/-- A packet taken apart from `FRAME_SIZE` bytes (R122, R155). -/
abbrev Packet.WellDecoded (c : Config) (p : Packet) : Prop :=
  p.wire.length = c.frameLen ∧ p = decodeFn c.dataSize p.wire

/-- `PKT`: the widths of R23, and the rules of `Crafted` (R28, R29). -/
structure PacketRegister.Inv (c : Config) (p : PacketRegister) : Prop where
  uid_width : p.uid.length = uidLen
  data_width : p.data.length = c.dataSize
  wire_width : p.wire.length = c.frameLen
  crafted_full : p.crafted = true → p.written = 0b11111
  crafted_assigned : p.crafted = p.cksAssigned
  crafted_wire : p.crafted = true → p.wire = p.serializeWith p.checksum

/-- `FR`: the bounds of R33 to R35, and R155 and R36 for the results. -/
structure FrameReceiver.Inv (c : Config) (f : FrameReceiver) : Prop where
  iter_bound : f.iter ≤ f.maxTries
  drain_bound : f.phase = .drain → f.iter < f.maxTries
  hist_bound : f.hist.length ≤ f.histCap
  buf_bound : f.buf.length < c.frameLen
  packets_decoded : ∀ p ∈ f.packets, p.WellDecoded c
  checks : f.crcOk = f.packets.map fun p => checkCrcFn c.lut p.wire

/-- The block: its packet register, its receiver, and what runs. -/
structure State.BlockInv (s : State) : Prop where
  pkt : s.pkt.Inv s.cfg
  fr : s.fr.Inv s.cfg
  /-- R37: busy exactly while a `SEND` or a `RECEIVE_FRAMES` runs. -/
  busy_running : s.st.busy = true ↔ s.tx.phase ≠ .idle ∨ s.fr.phase ≠ .idle
  /-- R63: not both. -/
  one_running : s.tx.phase = .idle ∨ s.fr.phase = .idle
  /-- R31: no unsent byte is kept between operations. -/
  nothing_unsent : s.tx.phase ≠ .push → s.tx.todo = []

/-- The invariant of the whole machine: the block's, and that between steps the session awaits no reply (a reply is
consulted in one step). -/
structure State.Inv (s : State) : Prop where
  block : s.BlockInv
  none_awaited : s.ses.awaiting = none

/-- The whole frames of `size` bytes in a byte stream: frame `k` is bytes `k * size` to `(k + 1) * size - 1` (R59,
R155). -/
def wholeFrames (size : Nat) (stream : List Byte) : List (List Byte) :=
  (List.range (stream.length / size)).map fun k => slice stream (k * size) size

/-- The value of upper-case hexadecimal digits, the highest first. -/
def hexValue (digits : List Char) : Nat :=
  digits.foldl (fun n c => 16 * n + (if c.toNat < 65 then c.toNat - 48 else c.toNat - 55)) 0

/-- The agents inside move next, and `rest` is then left of the schedule. -/
abbrev State.Turn (s : State) (rest : List Input) : Prop := s.upcoming = .turn :: rest

/-- From `s` to `t` nothing moved but the session and the count of free values: no element of the block, nothing the
requester was given, nothing still to arrive ("before any I/O", R191, R228). -/
def State.OnlySession (s t : State) : Prop := t = { s with ses := t.ses, free := t.free }

end Sys2Proof.Machine
end

