-- ==== Sys2Proof/Certificates/Slice0/Obligations.lean ====
section
/-! DEFINITION. The statements for the provers. Each docstring names the rules of spec/ that the statement formalises
or rests on. -/

open Sys2Proof Sys2Proof.Machine

/-! ### Encodings -/

/-- Decoding what the encoder writes gives the instruction back, for every well-formed instruction, every operand and
every `DATA_SIZE` (R70, R73, R82). The operand bytes of a request are the model's layout (notes/assumptions/6.md). -/
def Obligations.DecodeOfEncodeIsTheInstruction : Prop :=
  ∀ (ds : Nat) (i : Instr), i.wf ds = true → decode i.lane ds (encode i) = .ok i

/-- Every frame the decoder accepts is the encoding of a well-formed packet command (R86): no byte is dropped. -/
def Obligations.EncodeOfDecodedFrameIsTheFrame : Prop :=
  ∀ (ds : Nat) (raw : List Byte) (i : Instr), decodeFrame ds raw = .ok i →
    i.lane = .frame ∧ i.wf ds = true ∧ encode i = raw

/-- The frame decoder accepts exactly the buffers of `33 + DATA_SIZE` bytes whose first byte is one of the nine
command values, reads each field where R70 puts it, and refuses the others by name (R73, R74, R86). -/
def Obligations.FrameDecoderReadsEachFieldInPlace : Prop :=
  ∀ (ds : Nat) (raw : List Byte),
    (raw.length ≠ 33 + ds → decodeFrame ds raw = .error (.frameLength raw.length (33 + ds))) ∧
    (raw.length = 33 + ds →
      let f : FrameBody :=
        { pic := raw.getD 1 0
          options := BitVec.ofNat 32 ((raw.getD 2 0).toNat + 256 * (raw.getD 3 0).toNat
            + 65536 * (raw.getD 4 0).toNat + 16777216 * (raw.getD 5 0).toNat)
          uid := (raw.drop 6).take 25
          data := (raw.drop 31).take ds
          checksum := BitVec.ofNat 16 ((raw.getD (31 + ds) 0).toNat + 256 * (raw.getD (32 + ds) 0).toNat) }
      let c := raw.getD 0 0
      decodeFrame ds raw =
        if c = 1 then .ok (.ack f) else if c = 2 then .ok (.ping f) else if c = 3 then .ok (.read f)
        else if c = 4 then .ok (.write f) else if c = 5 then .ok (.sensors f) else if c = 6 then .ok (.load f)
        else if c = 7 then .ok (.exec f) else if c = 8 then .ok (.retr f) else if c = 255 then .ok (.err f)
        else .error (.reservedCommand c))

/-- A sanity statement: words written out from the spec's encodings decode to the instructions they stand for (R70,
R82; vector V-K4 of 95_test_vectors.md). The operand bytes of a request are the model's layout
(notes/assumptions/6.md). -/
def Obligations.WrittenOutWordsDecode : Prop :=
  decodeRequest [0x0B, 0x78, 0x56, 0x34, 0x12] = .ok (.setOptions 0x12345678) ∧
  decodeRequest [0x0E, 0x05] = .ok (.getField 5) ∧
  decodeRequest [0x0E, 0xFF] = .ok (.getField 255) ∧
  decodeRequest [0x18, 0x02, 0x00] = .ok (.send [0x02, 0x00]) ∧
  decodeRequest [0x10] = .ok .craft ∧
  decodeFrame 4 ([0x03, 0x02, 0x07, 0, 0, 0, 0x44, 0x45, 0x56, 0x31] ++ zeros 21 ++ zeros 4 ++ [0xA0, 0x95]) =
    .ok (.read { pic := 2, options := 7, uid := [0x44, 0x45, 0x56, 0x31] ++ zeros 21, data := zeros 4,
                 checksum := 0x95A0 })

/-- The reserved operation codes are `0x00`, `0x05` to `0x07`, `0x0F`, `0x16`, `0x17`, `0x1A` to `0x1F`, whatever the
operands. Requesting one of an idle block with no handler running, or `GET_FIELD` of any number from 6 on, raises
`ReservedOp` (code 9) and changes no state other than `ST.err`; the request has left the schedule, and the requester is
given the error (R83, R119, R229). -/
def Obligations.ReservedCodesRaiseReservedOp : Prop :=
  (∀ (code : BitVec 5) (operands : List Byte),
    decodeOperation code operands = .error (.reservedOp code) ↔
      code.toNat ∈ [0x00, 0x05, 0x06, 0x07, 0x0F, 0x16, 0x17, 0x1A, 0x1B, 0x1C, 0x1D, 0x1E, 0x1F]) ∧
  (∀ (s : State) (rest : List Input) (bytes : List Byte) (code : BitVec 5),
    s.upcoming = .request bytes :: rest → s.st.busy = false → s.ses.plan = [] →
    decodeRequest bytes = .error (.reservedOp code) →
    step s = .next { s with script := rest, st := { err := 9, busy := false },
                            resp := .error (.reservedOp code.toNat) }) ∧
  (∀ (s : State) (f : Byte), 6 ≤ f.toNat → s.st.busy = false →
    exec (.getField f) s = .next { s with st := { err := 9, busy := false },
                                          resp := .error (.reservedOp f.toNat) })

/-! ### A step runs the decoded instruction -/

/-- What the next entry of the schedule makes the step do. A request whose bytes decode to `i` is run as `exec i` on the
state without that entry (R82), and so is a frame given to the session (R86); a handler invocation is `State.invoke`.
While the session has work, all three wait and the agents inside move (R21, R63), but for a request of a busy block, which
is not kept waiting (R231). When the agents inside move and the block is idle, the session does the first entry of its
work. A frame that is no packet command is a command error of the session where its command value is reserved (R180), and
the hard error where its length is wrong (R223); a busy block turns it away. That a frame given to the session is a request
of it is the model's choice (notes/assumptions/9.md), how one that is no packet command ends too
(notes/assumptions/20.md), that the session's work is a list before whose end nothing else is taken is its reading of R21 and R63 (notes/assumptions/11.md),
and what of this holds while an operation runs is its choice (notes/assumptions/31.md). -/
def Obligations.StepRunsTheDecodedInstruction : Prop :=
  ∀ (s : State) (rest : List Input) (bytes : List Byte) (i : Instr) (h : Handler),
    (s.upcoming = .request bytes :: rest → (s.ses.plan = [] ∨ s.st.busy = true) → decodeRequest bytes = .ok i →
      step s = exec i { s with script := rest }) ∧
    (s.upcoming = .command bytes :: rest → s.ses.plan = [] → decodeFrame s.cfg.dataSize bytes = .ok i →
      step s = exec i { s with script := rest }) ∧
    (s.upcoming = .command bytes :: rest → s.ses.plan = [] →
      let ended (o : HandlerOutcome) : State := { s with
        script := rest, ses := { s.ses with plan := [], awaiting := none, multi := false, outcome := o } }
      (s.st.busy = false → bytes.length ≠ 33 + s.cfg.dataSize →
        step s = .next (ended (.blockError (.sizeMismatch bytes.length (33 + s.cfg.dataSize))))) ∧
      (s.st.busy = false → bytes.length = 33 + s.cfg.dataSize →
        (bytes.getD 0 0).toNat ∉ [1, 2, 3, 4, 5, 6, 7, 8, 255] →
        step s = .next (ended (.commandError (.reservedCommand (bytes.getD 0 0))))) ∧
      (s.st.busy = true → step s = .next { s with script := rest, resp := .error .busy })) ∧
    (s.upcoming = .handler h :: rest → s.ses.plan = [] → step s = .next (State.invoke { s with script := rest } h)) ∧
    (s.ses.plan ≠ [] →
      s.upcoming = .command bytes :: rest ∨ s.upcoming = .handler h :: rest ∨
        (s.upcoming = .request bytes :: rest ∧ s.st.busy = false) →
      step s = s.advance) ∧
    (∀ (task : Task) (tasks : List Task), s.Turn rest → s.tx.phase = .idle → s.fr.phase = .idle →
      s.ses.plan = task :: tasks →
      step s = State.runTask { s with script := rest, ses := { s.ses with plan := tasks } } task)

/-- How the session reads the replies of an exchange other than PING's, when the agents inside move, the block is idle and
the reading comes first in its work. With no reply the unit is skipped or the handler fails. Otherwise the first reply is
read; a SENSORS exchange then has every later reply to read (R204; notes/assumptions/14.md), every other exchange
discards them. One reply is read in the order of R205 and R235: one that fails its check is a CRC failure; one that is a
packet command `i` is run as `exec i` with the exchange awaiting it; any other, a reserved command value among them, is
a device error. -/
def Obligations.StepReadsTheReplies : Prop :=
  (∀ (s : State) (rest : List Input) (p : Purpose) (tasks : List Task), s.Turn rest → s.tx.phase = .idle →
    s.fr.phase = .idle → s.ses.plan = .consult p :: tasks → p ≠ .ping →
    let u (plan : List Task) : State := { s with script := rest, ses := { s.ses with plan := plan } }
    (s.fr.packets.zip s.fr.crcOk = [] → step s = .next ((u tasks).skipOrFail p .noReply)) ∧
    (∀ (q : Packet) (ok : Bool) (more : List (Packet × Bool)), s.fr.packets.zip s.fr.crcOk = (q, ok) :: more →
      (∀ d, p = .sensors d →
        step s = (u (more.map (fun r => Task.reply p r.1 r.2) ++ tasks)).readReply p q ok) ∧
      ((∀ d, p ≠ .sensors d) → step s = (u tasks).readReply p q ok))) ∧
  (∀ (s : State) (rest : List Input) (p : Purpose) (q : Packet) (ok : Bool) (tasks : List Task), s.Turn rest →
    s.tx.phase = .idle → s.fr.phase = .idle → s.ses.plan = .reply p q ok :: tasks →
    step s = State.readReply { s with script := rest, ses := { s.ses with plan := tasks } } p q ok) ∧
  (∀ (s : State) (p : Purpose) (q : Packet),
    s.readReply p q false = .next (s.skipOrFail p .crcFailure) ∧
    (∀ i, decodeFrame s.cfg.dataSize q.wire = .ok i →
      s.readReply p q true = exec i { s with ses := { s.ses with awaiting := some p } }) ∧
    (∀ e, decodeFrame s.cfg.dataSize q.wire = .error e →
      s.readReply p q true = .next (s.skipOrFail p (.deviceError q.command))) ∧
    (q.WellDecoded s.cfg → q.command.toNat ∉ [1, 2, 3, 4, 5, 6, 7, 8, 255] →
      s.readReply p q true = .next (s.skipOrFail p (.deviceError q.command))))

/-! ### The CRC16 Engine -/

/-- `CRC16` of any buffer answers the left fold of the recurrence from 0 and does not touch `CRC.acc`; `CRC_BYTE` absorbs
one byte into the accumulator; `CRC_READ` answers it. None of them changes anything else but `ST.err`, which is 0 (R100,
R101, R102, R106, R107). -/
def Obligations.CrcOperationsUseTheRecurrence : Prop :=
  ∀ s : State, s.st.busy = false →
    let recurrence (c : Half) (b : Byte) : Half :=
      (c >>> 8) ^^^ s.cfg.lut.getD ((c ^^^ b.setWidth 16) &&& 0x00FF#16).toNat 0
    (∀ buffer : List Byte, exec (.crc16 buffer) s = .next { s with
      st := { s.st with err := 0 }, resp := .ok (.half (buffer.foldl recurrence 0)) }) ∧
    (∀ b : Byte, exec (.crcByte b) s = .next { s with
      crcAcc := recurrence s.crcAcc b, st := { s.st with err := 0 }, resp := .ok .unit }) ∧
    exec .crcRead s = .next { s with st := { s.st with err := 0 }, resp := .ok (.half s.crcAcc) }

/-- `CRC_INIT` (op 0x02) clears the accumulator and nothing else but `ST.err`; it is idempotent, and `CRC_READ` after
it answers 0 (R105). -/
def Obligations.CrcInitClearsTheAccumulator : Prop :=
  decodeOperation 0x02 [] = .ok .crcInit ∧
  ∀ s : State, s.st.busy = false →
    let t : State := { s with crcAcc := 0, st := { s.st with err := 0 }, resp := .ok .unit }
    exec .crcInit s = .next t ∧ exec .crcInit t = .next t ∧
      exec .crcRead t = .next { t with resp := .ok (.half 0) }

/-- Streaming equals one-shot: after `CRC_INIT` and `CRC_BYTE` of every byte of `B`, each requested of the step in
turn while no handler runs, the accumulator is what `CRC16 B` answers, for every table (R85, R107). -/
def Obligations.StreamingCrcEqualsOneShot : Prop :=
  ∀ (s : State) (rest : List Input) (buffer : List Byte), s.st.busy = false → s.ses.plan = [] →
    s.script = .request [0x02] :: (buffer.map (fun b => Input.request [0x03, b]) ++ rest) →
    Host.Core.run Sys2Proof.core (buffer.length + 1) s =
      .next { s with script := rest, crcAcc := crc16Fn s.cfg.lut buffer, st := { s.st with err := 0 },
                     resp := .ok .unit }

/-- With the default table the table form and the bit-serial form of one step are one function (R103, R104; the table
is from general knowledge, notes/assumptions/4.md). -/
def Obligations.TableStepEqualsBitSerialStep : Prop :=
  ∀ (c : Half) (b : Byte), crcStep defaultLut c b = crcStepSerial c b

/-- Linearity over xor, with the default table (R108 (b); notes/assumptions/4.md). -/
def Obligations.CrcIsLinear : Prop :=
  ∀ a b : List Byte, a.length = b.length →
    crc16Fn defaultLut (List.zipWith (· ^^^ ·) a b) = crc16Fn defaultLut a ^^^ crc16Fn defaultLut b

/-- A single changed bit changes the CRC, with the default table (R108 (d); notes/assumptions/4.md). -/
def Obligations.CrcDetectsEverySingleBit : Prop :=
  ∀ (before after : List Byte) (x : Byte) (k : Nat), k < 8 →
    crc16Fn defaultLut (before ++ (x ^^^ (1#8 <<< k)) :: after) ≠ crc16Fn defaultLut (before ++ x :: after)

/-! ### The Packet Codec -/

/-- `PKT_CLEAR` (op 0x08), in every packet phase: the flags fall and the phase is `Empty`; every field is unreadable
and so are the wire bytes (R112). -/
def Obligations.PktClearEmptiesThePacket : Prop :=
  decodeOperation 0x08 [] = .ok .pktClear ∧
  ∀ s : State, s.st.busy = false →
    let t : State := { s with pkt := { s.pkt with written := 0, cksAssigned := false, crafted := false }
                              st := { s.st with err := 0 }, resp := .ok .unit }
    exec .pktClear s = .next t ∧ t.pkt.phase = .empty ∧
    (∀ f : Byte, f.toNat ≤ 5 →
      exec (.getField f) t = .next { t with st := { err := 6, busy := false }, resp := .error (.fieldUnset f.toNat) }) ∧
    exec .toBytes t = .next { t with st := { err := 1, busy := false }, resp := .error .notCrafted }

/-- The five `SET_*` operations on an uncrafted packet store their operand, set their bit of `PKT.written` and change
nothing else but `ST.err`; the phase is then `Populated` (R114 to R118, R126). -/
def Obligations.SetFieldStoresAndMarks : Prop :=
  ∀ s : State, s.st.busy = false → s.pkt.crafted = false →
    let done (p : PacketRegister) : State :=
      { s with pkt := p, st := { s.st with err := 0 }, resp := .ok .unit }
    (∀ c, exec (.setCommand c) s = .next (done { s.pkt with command := c, written := s.pkt.written ||| 0b00001 })) ∧
    (∀ p, exec (.setPic p) s = .next (done { s.pkt with pic := p, written := s.pkt.written ||| 0b00010 })) ∧
    (∀ v, exec (.setOptions v) s = .next (done { s.pkt with options := v, written := s.pkt.written ||| 0b00100 })) ∧
    (∀ u : List Byte, u.length ≤ 25 →
      exec (.setUid u) s = .next (done { s.pkt with uid := u ++ List.replicate (25 - u.length) 0,
                                                    written := s.pkt.written ||| 0b01000 })) ∧
    (∀ d : List Byte, d.length = s.cfg.dataSize →
      exec (.setData d) s = .next (done { s.pkt with data := d, written := s.pkt.written ||| 0b10000 })) ∧
    (∀ k, k < 5 → (s.pkt.mark k).phase = .populated)

/-- The five `SET_*` operations refuse: on a crafted packet all raise `PacketLocked`, whatever the operand's length;
on an uncrafted one `SET_UID` of more than 25 bytes and `SET_DATA` of a length other than `DATA_SIZE` raise
`BadOperand`; nothing but `ST.err` changes (R117, R118, R126, R235). -/
def Obligations.SetFieldRefusals : Prop :=
  ∀ s : State, s.st.busy = false →
    (s.pkt.crafted = true → ∀ i : Instr,
      (∃ c, i = .setCommand c) ∨ (∃ p, i = .setPic p) ∨ (∃ v, i = .setOptions v) ∨ (∃ u, i = .setUid u) ∨
        (∃ d, i = .setData d) →
      exec i s = .next { s with st := { err := 5, busy := false }, resp := .error .packetLocked }) ∧
    (s.pkt.crafted = false →
      (∀ u : List Byte, 25 < u.length →
        exec (.setUid u) s = .next { s with st := { err := 7, busy := false },
                                            resp := .error (.badOperand u.length) }) ∧
      (∀ d : List Byte, d.length ≠ s.cfg.dataSize →
        exec (.setData d) s = .next { s with st := { err := 7, busy := false },
                                             resp := .error (.badOperand d.length) }))

/-- `GET_FIELD` answers a field that holds a value and raises `FieldUnset` for one that does not; nothing but
`ST.err` changes (R119). -/
def Obligations.GetFieldAnswersWrittenFields : Prop :=
  ∀ (s : State) (f : Byte), s.st.busy = false → f.toNat ≤ 5 →
    let holds : Bool := if f.toNat = 5 then s.pkt.cksAssigned else s.pkt.written.getLsbD f.toNat
    let value : Value :=
      if f = 0 then .byte s.pkt.command else if f = 1 then .byte s.pkt.pic else if f = 2 then .quad s.pkt.options
      else if f = 3 then .bytes s.pkt.uid else if f = 4 then .bytes s.pkt.data else .half s.pkt.checksum
    exec (.getField f) s =
      if holds then .next { s with st := { s.st with err := 0 }, resp := .ok value }
      else .next { s with st := { err := 6, busy := false }, resp := .error (.fieldUnset f.toNat) }

/-- `CRAFT`: nothing on a crafted packet; `NotPopulated` when a field is unwritten; otherwise the checksum not yet
assigned is the CRC of the frame with its slot zeroed, an assigned one is kept, the wire bytes are the frame with that
checksum, and the packet is crafted; nothing else changes (R111, R113). -/
def Obligations.CraftAssignsChecksumAndWire : Prop :=
  ∀ s : State, s.st.busy = false →
    (s.pkt.crafted = true → exec .craft s = .next { s with st := { s.st with err := 0 }, resp := .ok .unit }) ∧
    (s.pkt.crafted = false → s.pkt.written ≠ 0b11111 →
      exec .craft s = .next { s with st := { err := 4, busy := false }, resp := .error (.notPopulated s.pkt.written) }) ∧
    (s.pkt.crafted = false → s.pkt.written = 0b11111 →
      let frame (k : Half) : List Byte :=
        [s.pkt.command, s.pkt.pic] ++ toLe32 s.pkt.options ++ s.pkt.uid ++ s.pkt.data ++ toLe16 k
      let k := if s.pkt.cksAssigned then s.pkt.checksum else crc16Fn s.cfg.lut (frame 0)
      exec .craft s = .next { s with
        pkt := { s.pkt with checksum := k, cksAssigned := true, wire := frame k, crafted := true }
        st := { s.st with err := 0 }, resp := .ok .unit })

/-- `TO_BYTES` and `CHECK_CRC` on a crafted packet answer the wire bytes and whether the checksum matches, on any
other raise `NotCrafted`; nothing but `ST.err` changes (R121, R123). -/
def Obligations.WireReadersNeedACraftedPacket : Prop :=
  ∀ s : State, s.st.busy = false →
    (s.pkt.crafted = true →
      exec .toBytes s = .next { s with st := { s.st with err := 0 }, resp := .ok (.bytes s.pkt.wire) } ∧
      exec .checkCrc s = .next { s with
        st := { s.st with err := 0 }
        resp := .ok (.bit (decide (crc16Fn s.cfg.lut (s.pkt.wire.take (s.pkt.wire.length - 2) ++ [0, 0]) =
          le16 s.pkt.wire (s.pkt.wire.length - 2)))) }) ∧
    (s.pkt.crafted = false → ∀ i : Instr, i = .toBytes ∨ i = .checkCrc →
      exec i s = .next { s with st := { err := 1, busy := false }, resp := .error .notCrafted })

/-- `DECODE` of `33 + DATA_SIZE` bytes overwrites the whole of `PKT` in any phase, the wire bytes being the bytes
given; any other length raises `SizeMismatch` and leaves `PKT` as it was; nothing else changes (R120, R122, R129). -/
def Obligations.DecodeTakesAFrameApart : Prop :=
  ∀ (s : State) (raw : List Byte), s.st.busy = false →
    (raw.length = 33 + s.cfg.dataSize →
      exec (.decode raw) s = .next { s with
        pkt := { command := raw.getD 0 0, pic := raw.getD 1 0, options := le32 raw 2
                 uid := (raw.drop 6).take 25, data := (raw.drop 31).take s.cfg.dataSize
                 checksum := le16 raw (31 + s.cfg.dataSize), wire := raw
                 written := 0b11111, cksAssigned := true, crafted := true }
        st := { s.st with err := 0 }, resp := .ok .unit }) ∧
    (raw.length ≠ 33 + s.cfg.dataSize →
      exec (.decode raw) s = .next { s with
        st := { err := 2, busy := false }, resp := .error (.sizeMismatch raw.length (33 + s.cfg.dataSize)) })

/-- `EXPECTED_SIZE` (op 0x14) answers `33 + DATA_SIZE` and changes nothing but `ST.err`: 33 for `DATA_SIZE = 0`, 37
for 4, 545 for 512 (R124). -/
def Obligations.ExpectedSizeIsTheFrameLength : Prop :=
  decodeOperation 0x14 [] = .ok .expectedSize ∧
  ∀ s : State, s.st.busy = false →
    exec .expectedSize s = .next { s with
      st := { s.st with err := 0 }, resp := .ok (.nat (1 + 1 + 4 + 25 + s.cfg.dataSize + 2)) } ∧
    1 + 1 + 4 + 25 + s.cfg.dataSize + 2 = 33 + s.cfg.dataSize

/-- `EXTRACT_SENSORS`: its checks in the order of R235, each changing nothing but `ST.err`; past them it answers two
integers, each the one nearest to the exact rational of R125 in units of `10^-5`, the even one on a tie (R125, R224,
D9). -/
def Obligations.ExtractSensorsRoundsTheExactRationals : Prop :=
  ∀ s : State, s.st.busy = false →
    let word (k : Nat) : Half := le16 s.pkt.data k
    let fails (code : BitVec 4) (e : BlockError) : State :=
      { s with st := { err := code, busy := false }, resp := .error e }
    (s.pkt.written.getLsbD 4 = false → exec .extractSensors s = .next (fails 6 (.fieldUnset 4))) ∧
    (s.pkt.written.getLsbD 4 = true → s.cfg.dataSize < 10 →
      exec .extractSensors s = .next (fails 8 (.payloadTooShort s.cfg.dataSize))) ∧
    (s.pkt.written.getLsbD 4 = true → 10 ≤ s.cfg.dataSize → word 0 = word 2 →
      exec .extractSensors s = .next (fails 3 (.divideByZero .calibration))) ∧
    (s.pkt.written.getLsbD 4 = true → 10 ≤ s.cfg.dataSize → word 0 ≠ word 2 → word 8 = 0 →
      exec .extractSensors s = .next (fails 3 (.divideByZero .supply))) ∧
    (s.pkt.written.getLsbD 4 = true → 10 ≤ s.cfg.dataSize → word 0 ≠ word 2 → word 8 ≠ 0 →
      ∃ q v : Int,
        exec .extractSensors s = .next { s with st := { s.st with err := 0 }, resp := .ok (.sensors (q + 3000000) v) } ∧
        (let num : Int := 8000000 * ((word 4).toNat - (word 2).toNat)
         let den : Int := (word 0).toNat - (word 2).toNat
         2 * |num - q * den| ≤ |den| ∧ (2 * |num - q * den| = |den| → q % 2 = 0)) ∧
        (let num : Int := 330000 * (word 6).toNat
         let den : Int := (word 8).toNat
         2 * |num - v * den| ≤ den ∧ (2 * |num - v * den| = den → v % 2 = 0)))

/-- Round trip: for every five fields, the frame `CRAFT` would make decodes to those fields and passes the check, for
every table and every `DATA_SIZE` (R127). -/
def Obligations.CraftedFrameRoundTrips : Prop :=
  ∀ (lut : List Half) (ds : Nat) (c p : Byte) (o : Quad) (u d : List Byte), u.length = 25 → d.length = ds →
    let k := checksumOf lut c p o u d
    let w := serialize c p o u d k
    decodeFn ds w = { command := c, pic := p, options := o, uid := u, data := d, checksum := k, wire := w } ∧
    checkCrcFn lut w = true

/-- Corruption detection: a frame that passes the check fails it after any single-bit change, with the default table
(R128; notes/assumptions/4.md). -/
def Obligations.EverySingleBitFlipFailsTheCheck : Prop :=
  ∀ (ds : Nat) (before after : List Byte) (x : Byte) (k : Nat), k < 8 →
    (before ++ x :: after).length = 33 + ds → checkCrcFn defaultLut (before ++ x :: after) = true →
    checkCrcFn defaultLut (before ++ (x ^^^ (1#8 <<< k)) :: after) = false

/-- For every table whose entry 0 is 0, leading zeros are invisible to the CRC, and so the all-zero frame decodes and
passes the check (R108 (c), R262): a hazard of the protocol, not of the model. -/
def Obligations.LeadingZerosAreInvisible : Prop :=
  ∀ lut : List Half, lut.getD 0 0 = 0 →
    (∀ (n : Nat) (b : List Byte), crc16Fn lut (zeros n ++ b) = crc16Fn lut b) ∧
    ∀ ds : Nat, checkCrcFn lut (zeros (33 + ds)) = true ∧ (decodeFn ds (zeros (33 + ds))).command = 0 ∧
      (decodeFn ds (zeros (33 + ds))).checksum = 0

/-- Which operation is legal in which packet phase (R28, R130), for a `PKT` that keeps its invariant: what every row of
the table of R130 answers, and the phase after. Of `SET_UID` and `SET_DATA` the row speaks for an operand of a length
they take; `EXTRACT_SENSORS` performs its rule where its row says ok, and with a payload of ten bytes and no zero divisor
that is a result. -/
def Obligations.PhaseTable : Prop :=
  ∀ s : State, s.st.busy = false → s.pkt.Inv s.cfg →
    (∃ t, exec .pktClear s = .next t ∧ t.st.err = 0 ∧ t.pkt.phase = .empty) ∧
    (∀ i : Instr,
      (∃ c, i = .setCommand c) ∨ (∃ p, i = .setPic p) ∨ (∃ v, i = .setOptions v) ∨
        (∃ u, u.length ≤ 25 ∧ i = .setUid u) ∨ (∃ d, d.length = s.cfg.dataSize ∧ i = .setData d) →
      ∃ t, exec i s = .next t ∧
        (s.pkt.phase ≠ .crafted → t.st.err = 0 ∧ t.pkt.phase = .populated) ∧
        (s.pkt.phase = .crafted → t.st.err = 5 ∧ t.pkt = s.pkt)) ∧
    (∀ f : Byte, f.toNat ≤ 5 → ∃ t, exec (.getField f) s = .next t ∧ t.pkt = s.pkt ∧
      (s.pkt.phase = .empty → t.st.err = 6) ∧ (s.pkt.phase = .crafted → t.st.err = 0) ∧
      (s.pkt.phase = .populated → f.toNat ≤ 4 → s.pkt.written.getLsbD f.toNat = true → t.st.err = 0) ∧
      (s.pkt.phase = .populated → f.toNat ≤ 4 → s.pkt.written.getLsbD f.toNat = false → t.st.err = 6) ∧
      (s.pkt.phase = .populated → f.toNat = 5 → t.st.err = 6)) ∧
    (∃ t, exec .craft s = .next t ∧
      (s.pkt.phase = .crafted → t.st.err = 0 ∧ t.pkt = s.pkt) ∧
      (s.pkt.phase ≠ .crafted → s.pkt.written = 0b11111 → t.st.err = 0 ∧ t.pkt.phase = .crafted) ∧
      (s.pkt.phase ≠ .crafted → s.pkt.written ≠ 0b11111 → t.st.err = 4 ∧ t.pkt = s.pkt)) ∧
    (∀ i : Instr, i = .toBytes ∨ i = .checkCrc → ∃ t, exec i s = .next t ∧ t.pkt = s.pkt ∧
      (s.pkt.phase = .crafted → t.st.err = 0) ∧ (s.pkt.phase ≠ .crafted → t.st.err = 1)) ∧
    (∀ raw : List Byte, ∃ t, exec (.decode raw) s = .next t ∧
      (raw.length = 33 + s.cfg.dataSize → t.st.err = 0 ∧ t.pkt.phase = .crafted) ∧
      (raw.length ≠ 33 + s.cfg.dataSize → t.st.err = 2 ∧ t.pkt = s.pkt)) ∧
    (∃ t, exec .extractSensors s = .next t ∧ t.pkt = s.pkt ∧
      (s.pkt.phase = .empty → t.st.err = 6) ∧
      (s.pkt.phase = .populated → s.pkt.written.getLsbD 4 = false → t.st.err = 6) ∧
      (s.pkt.phase = .populated ∧ s.pkt.written.getLsbD 4 = true ∨ s.pkt.phase = .crafted →
        t.st.err ≠ 6 ∧
        (10 ≤ s.cfg.dataSize → le16 s.pkt.data 0 ≠ le16 s.pkt.data 2 → le16 s.pkt.data 8 ≠ 0 → t.st.err = 0))) ∧
    (∃ t, exec .expectedSize s = .next t ∧ t.st.err = 0 ∧ t.pkt = s.pkt)

/-! ### The Transport Channel and the Frame Receiver -/

/-- `SEND` accepted (S0): busy, the input flushed, all its bytes still to push; nothing else changes, `ST.err` and
`TX.stream` included (R141). -/
def Obligations.SendFlushesAndStarts : Prop :=
  ∀ (s : State) (w : List Byte), s.st.busy = false →
    exec (.send w) s = .next { s with
      st := { s.st with busy := true }, rx := [], tx := { s.tx with phase := .push, todo := w }, resp := .pending }

/-- A `SEND` of `w`, from its acceptance on and with nothing arriving, ends after `len(w) + 3` steps with every byte in
`TX.stream` in order, the block idle and `ST.err` 0; nothing else has changed (R31, R57, R141). -/
def Obligations.SendPutsEveryByteOnTheLine : Prop :=
  ∀ (s : State) (w : List Byte), s.st.busy = true → s.script = [] → s.beat = [] → s.tx.phase = .push → s.tx.todo = w →
    Host.Core.run Sys2Proof.core (w.length + 3) s = .next { s with
      tx := { stream := s.tx.stream ++ w, phase := .idle, todo := [] }
      st := { err := 0, busy := false }
      resp := .ok .unit }

/-- `RECEIVE_FRAMES` accepted (F0): the operands latched, the working state empty, busy, `InitWait`; `RX.fifo` is not
flushed and nothing else changes. A busy block answers `Busy` (R145, R231). -/
def Obligations.ReceiveStartsFresh : Prop :=
  ∀ (s : State) (timeout maxTries : Nat),
    (s.st.busy = false → exec (.receiveFrames timeout maxTries) s = .next { s with
      fr := { phase := .initWait, iter := 0, maxTries := maxTries, timeout := timeout, hist := [], buf := []
              packets := [], crcOk := [] }
      st := { s.st with busy := true }, resp := .pending }) ∧
    (s.st.busy = true → exec (.receiveFrames timeout maxTries) s = .next { s with resp := .error .busy })

/-- F1 and F5: a sleep of the receiver ends at a turn, and only `FR.phase` changes, to `Sample` (R146, R150). And every
sleep does end, the settle delay of `SEND` among them: from a state that keeps the invariant, whatever is on the schedule
and however the outside goes on after it, the phase is another one after at most as many steps as the schedule and one
round of what repeats have entries, and one more for the turn that closes the round (R21, R268; that the outside comes in
such rounds is the model's choice, notes/assumptions/5.md and 18.md). -/
def Obligations.EverySleepEnds : Prop :=
  (∀ (s : State) (rest : List Input), s.Turn rest → s.tx.phase = .idle →
    s.fr.phase = .initWait ∨ s.fr.phase = .sleep →
    step s = .next { s with script := rest, fr := { s.fr with phase := .sample } }) ∧
  (∀ s : State, s.Inv →
    (s.fr.phase = .initWait ∨ s.fr.phase = .sleep →
      ∃ (n : Nat) (t : State), n ≤ s.script.length + s.beat.length + 1 ∧
        Host.Core.run Sys2Proof.core n s = .next t ∧ t.fr.phase ≠ s.fr.phase) ∧
    (s.tx.phase = .settle →
      ∃ (n : Nat) (t : State), n ≤ s.script.length + s.beat.length + 1 ∧
        Host.Core.run Sys2Proof.core n s = .next t ∧ t.tx.phase ≠ .settle))

/-- F2: with the budget exhausted the receiver is done; otherwise the count of bytes available now becomes the newest
sample, the history keeps its capacity, and the drain begins (R147). -/
def Obligations.SampleRecordsTheAvailableCount : Prop :=
  ∀ (s : State) (rest : List Input), s.Turn rest → s.tx.phase = .idle → s.fr.phase = .sample →
    (s.fr.iter = s.fr.maxTries →
      step s = .next { s with script := rest, fr := { s.fr with phase := .done } }) ∧
    (s.fr.iter ≠ s.fr.maxTries →
      step s = .next { s with
        script := rest
        fr := { s.fr with hist := (s.rx.length :: s.fr.hist).take (s.fr.maxTries / 2), phase := .drain } })

/-- F3: while a byte is available one byte moves from the head of `RX.fifo` to the buffer; the byte that fills the
buffer to `FRAME_SIZE` turns it into a packet with its check bit, whatever the check says; `PKT` is not touched
(R148). The buffer is below `FRAME_SIZE` in every state that keeps the invariant (R155). -/
def Obligations.DrainMovesOneByte : Prop :=
  ∀ (s : State) (rest : List Input) (b : Byte) (more : List Byte),
    s.Turn rest → s.tx.phase = .idle → s.fr.phase = .drain → s.rx = b :: more →
    s.fr.buf.length < 33 + s.cfg.dataSize →
    (s.fr.buf.length + 1 < 33 + s.cfg.dataSize →
      step s = .next { s with script := rest, rx := more, fr := { s.fr with buf := s.fr.buf ++ [b] } }) ∧
    (s.fr.buf.length + 1 = 33 + s.cfg.dataSize →
      step s = .next { s with
        script := rest
        rx := more
        fr := { s.fr with
          packets := s.fr.packets ++ [decodeFn s.cfg.dataSize (s.fr.buf ++ [b])]
          crcOk := s.fr.crcOk ++ [checkCrcFn s.cfg.lut (s.fr.buf ++ [b])]
          buf := [] } })

/-- F4: with no byte available the iteration is counted; the receiver is done when the history is full, every sample
in it is zero and a packet has been decoded, and sleeps otherwise (R149, D12). -/
def Obligations.DrainEndsWithTheQuiescenceTest : Prop :=
  ∀ (s : State) (rest : List Input), s.Turn rest → s.tx.phase = .idle → s.fr.phase = .drain →
    s.rx = [] →
    ((s.fr.hist.length = s.fr.maxTries / 2 ∧ (∀ n ∈ s.fr.hist, n = 0) ∧ 1 ≤ s.fr.packets.length) →
      step s = .next { s with script := rest, fr := { s.fr with iter := s.fr.iter + 1, phase := .done } }) ∧
    (¬ (s.fr.hist.length = s.fr.maxTries / 2 ∧ (∀ n ∈ s.fr.hist, n = 0) ∧ 1 ≤ s.fr.packets.length) →
      step s = .next { s with script := rest, fr := { s.fr with iter := s.fr.iter + 1, phase := .sleep } })

/-- F6: the result is every packet with its check bit, in order; a partial frame is discarded; the block is idle and
`RX.fifo` keeps its bytes (R151). -/
def Obligations.ReceiveDeliversItsPackets : Prop :=
  ∀ (s : State) (rest : List Input), s.Turn rest → s.tx.phase = .idle → s.fr.phase = .done →
    step s = .next { s with
      script := rest
      fr := { s.fr with buf := [], phase := .idle }
      st := { err := 0, busy := false }
      resp := .ok (.frames (s.fr.packets.zip s.fr.crcOk)) }

/-- The receiver refines the algorithm of R144 on a channel that is silent from the call on: started with any bytes in
`RX.fifo` and a budget of at least one try, it ends with exactly the whole frames those bytes hold, in order, each with
its check bit; it has used `1 + floor(max_tries / 2)` iterations when there is a whole frame and all of them otherwise;
`PKT`, `CRC.acc` and `TX.stream` are untouched (R144, R154, R155, R156). -/
def Obligations.SilentChannelReceivesExactlyTheWholeFrames : Prop :=
  ∀ s : State, s.st.busy = true → s.script = [] → s.beat = [] → s.tx.phase = .idle → 1 ≤ s.fr.maxTries →
    s.fr = { phase := .initWait, iter := 0, maxTries := s.fr.maxTries, timeout := s.fr.timeout, hist := [], buf := []
             packets := [], crcOk := [] } →
    ∃ (n : Nat) (t : State), Host.Core.run Sys2Proof.core n s = .next t ∧
      t.fr.packets = (wholeFrames (33 + s.cfg.dataSize) s.rx).map (decodeFn s.cfg.dataSize) ∧
      t.fr.crcOk = (wholeFrames (33 + s.cfg.dataSize) s.rx).map (checkCrcFn s.cfg.lut) ∧
      t.resp = .ok (.frames (t.fr.packets.zip t.fr.crcOk)) ∧
      (33 + s.cfg.dataSize ≤ s.rx.length → t.fr.iter = 1 + s.fr.maxTries / 2) ∧
      (s.rx.length < 33 + s.cfg.dataSize → t.fr.iter = s.fr.maxTries) ∧
      t.fr.phase = .idle ∧ t.st = { err := 0, busy := false } ∧ t.rx = [] ∧ t.fr.buf = [] ∧
      t.pkt = s.pkt ∧ t.crcAcc = s.crcAcc ∧ t.tx = s.tx

/-- When a call ends, and when it need not (R157, R268, R269, U17). From a state that keeps the invariant, with a call
running, if only bytes are still to arrive and finitely many of them, the call ends with its result. On a line that brings
a byte for every byte the receiver takes, without end (each round of `beat` is closed by a turn), a drain that has begun
never ends: after any number of steps the receiver is still draining. -/
def Obligations.ReceiveEndsOnceTheLineFallsSilent : Prop :=
  (∀ s : State, s.Inv → s.fr.phase ≠ .idle → s.beat = [] → (∀ i ∈ s.script, i = .turn ∨ ∃ b, i = .push b) →
    ∃ (n : Nat) (t : State), Host.Core.run Sys2Proof.core n s = .next t ∧ t.fr.phase = .idle ∧
      t.st = { err := 0, busy := false } ∧ t.resp = .ok (.frames (t.fr.packets.zip t.fr.crcOk))) ∧
  (∀ (s : State) (b : Byte), s.Inv → s.fr.phase = .drain → s.rx ≠ [] → s.script = [] → s.beat = [.push b] →
    ∀ n : Nat, ∃ t, Host.Core.run Sys2Proof.core n s = .next t ∧ t.fr.phase = .drain ∧ t.st.busy = true)

/-! ### Errors, the abort, reset -/

/-- `Busy`: a request of a busy block, for an operation or for a reserved code, ends with code 10 returned to the
requester and changes nothing, not even `ST.err` or `ST.busy`; the running operation is not disturbed (R231, R235). So
does every instruction; that the nine packet commands do is the model's choice (notes/assumptions/9.md), and that bytes
which are no request of the spec are not answered at all is too (notes/assumptions/8.md; the statement
`EveryStepAnswersANextState`). -/
def Obligations.BusyRefusesEveryRequest : Prop :=
  BlockError.busy.code = 10 ∧
  (∀ (s : State) (rest : List Input) (bytes : List Byte), s.upcoming = .request bytes :: rest → s.st.busy = true →
    ((∃ i, decodeRequest bytes = .ok i) ∨ ∃ code, decodeRequest bytes = .error (.reservedOp code)) →
    step s = .next { s with script := rest, resp := .error .busy }) ∧
  (∀ (s : State) (i : Instr), s.st.busy = true → exec i s = .next { s with resp := .error .busy })

/-- The abort of a running operation: not busy, code 11, `FR.phase` idle, no result; the receiver's other elements,
`RX.fifo` and the bytes already in `TX.stream` stay, the bytes not yet pushed are dropped; a running handler ends with
the timeout fault. An operation of one step, or none, is not aborted (R212, R232). That the alarm ends the handler in the
same step is the model's reading (notes/assumptions/15.md), and that the records the handler has inserted and not committed
stay pending its choice (notes/assumptions/32.md). -/
def Obligations.AlarmAbortsTheRunningOperation : Prop :=
  ∀ (s : State) (rest : List Input), s.upcoming = .alarm :: rest →
    let handlerAfter : Session :=
      if s.ses.plan = [] then s.ses
      else { s.ses with plan := [], awaiting := none, multi := false, outcome := .timeoutFault }
    (s.st.busy = true → step s = .next { s with
      script := rest
      st := { err := 11, busy := false }
      resp := .error (.aborted (if s.tx.phase = .idle then .receive s.fr.phase else .send s.tx.phase))
      fr := { s.fr with phase := .idle }
      tx := { s.tx with phase := .idle, todo := [] }
      ses := handlerAfter }) ∧
    (s.st.busy = false → step s = .next { s with script := rest, ses := handlerAfter })

/-- The reset event puts every element the spec gives a reset value at that value, keeps the parameters, and leaves the
block idle, with nothing of a running `SEND` left to push; every field of `PKT` is then unreadable (R31, R43, R250 to R252;
the session's own work: notes/assumptions/23.md). -/
def Obligations.ResetEventRestoresTheResetValues : Prop :=
  ∀ (s : State) (rest : List Input), s.upcoming = .reset :: rest →
    ∃ t, step s = .next t ∧ t.script = rest ∧ t.beat = s.beat ∧ t.cfg = s.cfg ∧
      t.crcAcc = 0 ∧ t.pkt.written = 0 ∧ t.pkt.cksAssigned = false ∧ t.pkt.crafted = false ∧ t.pkt.phase = .empty ∧
      t.rx = [] ∧ t.tx = { stream := [], phase := .idle, todo := [] } ∧ t.fr.phase = .idle ∧ t.fr.iter = 0 ∧ t.fr.hist = [] ∧ t.fr.buf = [] ∧
      t.fr.packets = [] ∧ t.fr.crcOk = [] ∧ t.st = { err := 0, busy := false } ∧ t.ses.devices = [] ∧
      t.ses.chanOn = s.cfg.chanOnReset ∧ t.ses.plan = [] ∧
      ∀ f, f ≤ 5 → t.pkt.readable f = false

/-- Every instruction ends in a next state in every state, and so does every step: no data in a frame, a buffer, a request
or the line ends a run (R220, R225). Bytes given to the request port that carry no operation code, or no operand of the
operation's type, are no request of the spec: they leave the schedule and nothing else changes, the block busy or idle
(notes/assumptions/8.md). -/
def Obligations.EveryStepAnswersANextState : Prop :=
  (∀ (i : Instr) (s : State), ∃ t, exec i s = .next t) ∧
  (∀ s : State, ∃ t, step s = .next t) ∧
  (∀ (s : State) (rest : List Input) (bytes : List Byte), s.upcoming = .request bytes :: rest →
    (s.ses.plan = [] ∨ s.st.busy = true) →
    (decodeRequest bytes = .error .empty ∨ ∃ code, decodeRequest bytes = .error (.malformedOperand code)) →
    step s = .next { s with script := rest })

/-! ### Invariants and whole-machine rules -/

/-- The reset state of every configuration keeps the invariant (R29, R33 to R36, R43). -/
def Obligations.ResetKeepsTheInvariant : Prop :=
  (∀ c : Config, (State.resetWith c).Inv) ∧ State.reset.Inv

/-- Every step keeps the invariant: a crafted packet's wire bytes are its fields' frame and its flags are all set, the
fields keep their widths, the receiver's buffer stays below `FRAME_SIZE`, its packets are taken apart from whole frames
and carry their own check bits, its counters keep their bounds, and the block is busy exactly while an operation runs
(R28, R29, R33 to R37, R63, R155). -/
def Obligations.StepKeepsTheInvariant : Prop :=
  ∀ s t : State, s.Inv → step s = .next t → t.Inv

/-- What a step can do to the two streams: `TX.stream` stays, or gains at its end the first byte that a running `SEND` has
still to push, which it then no longer has; and `RX.fifo` stays, gains at its tail the byte the environment pushes, loses
its head to a running receiver, or is flushed by a `SEND` accepted in that step, the block idle before it and busy after
(once, at S0: R141); only the reset event empties `TX.stream` (R30, R31, R57, R60, R64). A byte that the environment pushes
joins the tail of `RX.fifo` and changes nothing else, in whatever state it arrives (R152, R230). -/
def Obligations.StreamsKeepTheirOrder : Prop :=
  ∀ s t : State, step s = .next t → (∀ rest, s.upcoming ≠ .reset :: rest) →
    (t.tx.stream = s.tx.stream ∨
      (s.tx.phase = .push ∧ ∃ b, s.tx.todo = b :: t.tx.todo ∧ t.tx.stream = s.tx.stream ++ [b])) ∧
    (t.rx = s.rx ∨ (∃ b rest, s.upcoming = .push b :: rest ∧ t.rx = s.rx ++ [b]) ∨
      (s.fr.phase = .drain ∧ ∃ b, s.rx = b :: t.rx) ∨
      (s.st.busy = false ∧ t.rx = [] ∧ t.st.busy = true ∧ t.tx.phase = .push)) ∧
    (∀ b rest, s.upcoming = .push b :: rest → t = { s with script := rest, rx := s.rx ++ [b] })

/-- What a step cannot change: the parameters and the beat, ever (R22); and, the reset event aside, the session's device
list but at the end of a PING exchange, and its on/off flag but in the power handlers (R39, R41, R206). -/
def Obligations.OnlyPingAndPowerChangeTheSession : Prop :=
  ∀ s t : State, step s = .next t →
    t.cfg = s.cfg ∧ t.beat = s.beat ∧
    ((∀ rest, s.upcoming ≠ .reset :: rest) →
      (t.ses.devices ≠ s.ses.devices → ∃ tasks, s.ses.plan = .consult .ping :: tasks) ∧
      (t.ses.chanOn ≠ s.ses.chanOn →
        ∃ rest, s.upcoming = .handler .powerOn :: rest ∨ s.upcoming = .handler .powerOff :: rest))

/-! ### The packet commands and the session -/

/-- PING, and READ, SENSORS, LOAD, EXEC and RETR to a known device, as requests with the channel on: the exchange of R192
with the command's own value and the frame's fields, and the command's own reading of the replies; nothing else changes.
A READ is sent whatever its offset (notes/assumptions/27.md). PING with the channel off is a command error before any I/O
(R170, R172, R173, R175 to R178, R191 to R193). That a bare frame is a request of the session, and the first match in the
list its device, are the model's choices (notes/assumptions/9.md and 21.md). -/
def Obligations.RequestsBeginTheirExchange : Prop :=
  ∀ (s : State) (f : FrameBody), s.st.busy = false → s.ses.awaiting = none →
    let started (c : Byte) (p : Purpose) : State := { s with ses := { s.ses with
      plan := [.op .pktClear, .op (.setCommand c), .op (.setPic f.pic), .op (.setOptions f.options),
               .op (.setUid f.uid), .op (.setData f.data), .op .craft, .wire,
               .op (.receiveFrames (s.cfg.budgetOf c).timeout (s.cfg.budgetOf c).maxTries), .consult p]
              ++ s.ses.plan
      outcome := .running } }
    (s.ses.chanOn = true → exec (.ping f) s = .next (started 2 .ping)) ∧
    (s.ses.chanOn = false → exec (.ping f) s = .next { s with ses := { s.ses with
      plan := [], awaiting := none, multi := false, outcome := .commandError .channelOff } }) ∧
    (∀ d : Device, s.ses.chanOn = true →
      s.ses.devices.find? (fun e => e.uid == uidString f.uid && e.pic == f.pic) = some d →
      exec (.read f) s = .next (started 3 (.read d f.options.toNat)) ∧
      exec (.sensors f) s = .next (started 5 (.sensors d)) ∧
      exec (.load f) s = .next (started 6 (.load d)) ∧
      exec (.exec f) s = .next (started 7 (.exec d)) ∧
      exec (.retr f) s = .next (started 8 (.retr d)))

/-- WRITE as a request to a known device with the channel on, for `DATA_SIZE >= 1`: an offset up to and including
`floor(sram_size / DATA_SIZE)` begins the exchange, a larger one is a range error before any I/O; inside WRITE_INVERT,
the multi-target handler, the offset is not checked (R174, R197, R198, R199). That a bare frame is a request of the
session, and the first match in the list its device, are the model's choices (notes/assumptions/9.md and 21.md). -/
def Obligations.WriteRequestChecksItsOffset : Prop :=
  ∀ (s : State) (f : FrameBody) (d : Device), s.st.busy = false → s.ses.awaiting = none → s.ses.chanOn = true →
    1 ≤ s.cfg.dataSize →
    s.ses.devices.find? (fun e => e.uid == uidString f.uid && e.pic == f.pic) = some d →
    (s.ses.multi = true ∨ f.options.toNat ≤ d.sramSize / s.cfg.dataSize →
      exec (.write f) s = .next { s with ses := { s.ses with
        plan := [.op .pktClear, .op (.setCommand 4), .op (.setPic f.pic), .op (.setOptions f.options),
                 .op (.setUid f.uid), .op (.setData f.data), .op .craft, .wire,
                 .op (.receiveFrames (s.cfg.budgetOf 4).timeout (s.cfg.budgetOf 4).maxTries),
                 .consult (.write d f.options.toNat)] ++ s.ses.plan
        outcome := .running } }) ∧
    (s.ses.multi = false → d.sramSize / s.cfg.dataSize < f.options.toNat →
      exec (.write f) s = .next { s with ses := { s.ses with
        plan := [], awaiting := none, multi := false
        outcome := .commandError (.offsetRange f.options.toNat (d.sramSize / s.cfg.dataSize)) } })

/-- A packet command that names a device is refused before any I/O: channel off first, then the device reference. Where
the named device is not known, READ and SENSORS, the commands of the handlers that sweep the list, are refused for want
of any device when the list is empty, and every other command, or any of them when it is not, for the unknown device
(R191, R228, R235). That a bare frame is a request of the session, and the first match in the list its device, are the
model's choices (notes/assumptions/9.md and 21.md). -/
def Obligations.CommandPreconditionsComeBeforeIO : Prop :=
  ∀ (s : State) (f : FrameBody) (i : Instr), s.st.busy = false → s.ses.awaiting = none →
    i ∈ [Instr.read f, .write f, .sensors f, .load f, .exec f, .retr f] →
    let ended (e : CommandError) : State := { s with ses := { s.ses with
      plan := [], awaiting := none, multi := false, outcome := .commandError e } }
    (s.ses.chanOn = false → exec i s = .next (ended .channelOff)) ∧
    (s.ses.chanOn = true → s.ses.devices = [] → i = .read f ∨ i = .sensors f →
      exec i s = .next (ended .noDevices)) ∧
    (s.ses.chanOn = true → s.ses.devices = [] → i ≠ .read f → i ≠ .sensors f →
      exec i s = .next (ended (.unknownDevice (uidString f.uid)))) ∧
    (s.ses.chanOn = true → s.ses.devices ≠ [] →
      s.ses.devices.find? (fun e => e.uid == uidString f.uid && e.pic == f.pic) = none →
      exec i s = .next (ended (.unknownDevice (uidString f.uid))))

/-- Any packet command but ERR answers an awaiting WRITE or LOAD, whatever its fields hold ("ACK-equivalent", N12): the
handler goes on with what is left, or ends well; nothing else changes. An ACK where no exchange awaits a reply is an extra
frame and nothing changes (R171, R198, R200, R205; notes/assumptions/9.md). -/
def Obligations.AnyReplyAnswersWriteAndLoad : Prop :=
  ∀ (s : State) (f : FrameBody), s.st.busy = false →
    (∀ (d : Device) (k : Nat) (i : Instr), s.ses.awaiting = some (.write d k) ∨ s.ses.awaiting = some (.load d) →
      i ∈ [Instr.ack f, .ping f, .read f, .write f, .sensors f, .load f, .exec f, .retr f] →
      (s.ses.plan ≠ [] → exec i s = .next { s with ses := { s.ses with awaiting := none } }) ∧
      (s.ses.plan = [] → exec i s = .next { s with ses := { s.ses with
        plan := [], awaiting := none, multi := false, outcome := .ok } })) ∧
    (s.ses.awaiting = none → exec (.ack f) s = .next s)

/-- A reply to EXEC, under any packet command but ERR: `options = 0` is success, any other value an execution error
carrying it, and the whole field is compared; a reply to RETR gives the little-endian signed integers of its payload and
their display string, which also goes to the log (R177, R178, R201, R202). The display string is that of R203 and D29:
for each integer its signed decimal spelling with, from the left, every `10` replaced by a newline and then every `32` by
a space, joined without separators. That the string goes to the log at results level is the model's choice
(notes/assumptions/25.md). -/
def Obligations.ExecAndRetrReadTheirReplies : Prop :=
  (∀ (s : State) (f : FrameBody) (d : Device) (i : Instr), s.st.busy = false → s.ses.plan = [] →
    i ∈ [Instr.ack f, .ping f, .read f, .write f, .sensors f, .load f, .exec f, .retr f] →
    let ended (log : List LogLine) (o : HandlerOutcome) : State := { s with ses := { s.ses with
      plan := [], awaiting := none, multi := false, outcome := o, log := s.ses.log ++ log } }
    (s.ses.awaiting = some (.exec d) → f.options = 0 → exec i s = .next (ended [] .ok)) ∧
    (s.ses.awaiting = some (.exec d) → f.options ≠ 0 → exec i s = .next (ended [] (.executionError f.options))) ∧
    (s.ses.awaiting = some (.retr d) →
      let v : List Int := (List.range (f.data.length / 4)).map fun j => (le32 f.data (4 * j)).toInt
      exec i s = .next (ended [⟨.results, .display (displayText v)⟩] (.integers v (displayText v))))) ∧
  (∀ values : List Int, displayText values = values.flatMap fun v =>
    replacePair '3' '2' ' ' (replacePair '1' '0' '\n' (toString v).toList)) ∧
  (∀ (a b c x y : Char) (rest : List Char),
    replacePair a b c [] = [] ∧ replacePair a b c [x] = [x] ∧
    replacePair a b c (a :: b :: rest) = c :: replacePair a b c rest ∧
    (¬ (x = a ∧ y = b) → replacePair a b c (x :: y :: rest) = x :: replacePair a b c (y :: rest))) ∧
  displayText [10] = ['\n'] ∧ displayText [32] = [' '] ∧ displayText [105] = ['\n', '5'] ∧
    displayText [132] = ['1', ' ']

/-- A reply, under any packet command but ERR, to a READ exchange: one sample record with the identity of the
device asked (the model's choice, notes/assumptions/35.md), the region offset, its address string and the reply's bytes,
comma-joined too, is inserted, and the handler goes on with what is left or ends well (a READ frame asked for alone ends
so, its sample pending: the model's choice, notes/assumptions/28.md); to a SENSORS exchange: the session goes on to decode the reply and extract its sensors, for a record
under the reply's own UID. Nothing else changes (R173, R175, R195, R204, R210). The timestamp is the record's place in
capture order (notes/assumptions/13.md), the board type a free value (notes/assumptions/10.md), and that `DECODE` comes
before `EXTRACT_SENSORS` the model's choice (notes/assumptions/14.md). -/
def Obligations.ReadAndSensorsRecordTheirReplies : Prop :=
  ∀ (s : State) (f : FrameBody) (d : Device) (k : Nat) (i : Instr), s.st.busy = false →
    i ∈ [Instr.ack f, .ping f, .read f, .write f, .sensors f, .load f, .exec f, .retr f] →
    (s.ses.awaiting = some (.read d k) →
      let r : Record :=
        { boardType := Config.boardType s.free
          uid := d.uid
          body := .sample
            { pic := d.pic
              address := (offsetToAddress s.cfg.dataSize k).getD []
              values := [','].intercalate (f.data.map fun b => digits 10 b.toNat)
              timestamp := s.ses.sink.stored.length + s.ses.sink.pending.length
              offset := k
              bytes := f.data } }
      let recorded : Session :=
        { s.ses with awaiting := none, sink := { s.ses.sink with pending := s.ses.sink.pending ++ [r] } }
      (s.ses.plan ≠ [] → exec i s = .next { s with free := s.free + 1, ses := recorded }) ∧
      (s.ses.plan = [] → exec i s = .next { s with
        free := s.free + 1, ses := { recorded with multi := false, outcome := .ok } })) ∧
    (s.ses.awaiting = some (.sensors d) →
      exec i s = .next { s with ses := { s.ses with
        awaiting := none, plan := .op (.decode (encode i)) :: .extract (uidString f.uid) :: s.ses.plan } })

/-- The session's other tasks. A packet command is run as `exec` of it: so the commands that the handlers lay out begin
their exchanges (R192, R195). A block operation is requested as the host requests it; an error of the block is not caught
and ends the handler (R223, R234). `TO_BYTES -> w` is followed by `SEND w` (R192). `EXTRACT_SENSORS` that answers two
integers has their record inserted under the UID of the reply, and the handler goes on or ends well (R175, R204).
`commit()` makes the pending records stored ones, in order (R195, R210). The sink is the model's
(notes/assumptions/13.md), and the board type of a record a free value (notes/assumptions/10.md). Of the errors of the
block R223 names `NotCrafted` and `SizeMismatch`; that the session does not catch the others either is the model's reading:
of `DivideByZero`, which R224 leaves to the caller, and of `PayloadTooShort` in notes/assumptions/14.md, of `BadOperand` in
notes/assumptions/26.md. -/
def Obligations.SessionTasksRequestRecordAndCommit : Prop :=
  ∀ s : State,
    let failed (u : State) (e : BlockError) : State := { u with ses := { u.ses with
      plan := [], awaiting := none, multi := false, outcome := .blockError e } }
    let goingOn (v : Session) : Session :=
      if v.plan = [] then { v with awaiting := none, multi := false, outcome := .ok } else { v with awaiting := none }
    (∀ i : Instr, s.runTask (.command i) = exec i s) ∧
    (∀ (i : Instr) (u : State), exec i s = .next u →
      (∀ e, u.resp = .error e → s.runTask (.op i) = .next (failed u e)) ∧
      ((∀ e, u.resp ≠ .error e) → s.runTask (.op i) = .next u)) ∧
    (s.st.busy = false →
      (s.pkt.crafted = true → s.runTask .wire = .next { s with
        st := { s.st with err := 0 }, resp := .ok (.bytes s.pkt.wire)
        ses := { s.ses with plan := .op (.send s.pkt.wire) :: s.ses.plan } }) ∧
      (s.pkt.crafted = false → s.runTask .wire = .next (failed
        { s with st := { err := 1, busy := false }, resp := .error .notCrafted } .notCrafted))) ∧
    (∀ (uid : List Byte) (u : State), exec .extractSensors s = .next u →
      (∀ e, u.resp = .error e → s.runTask (.extract uid) = .next (failed u e)) ∧
      (∀ a b, u.resp = .ok (.sensors a b) → s.runTask (.extract uid) = .next { u with
        free := u.free + 1
        ses := goingOn { u.ses with sink := { u.ses.sink with pending := u.ses.sink.pending ++
          [{ boardType := Config.boardType u.free, uid := uid, body := .sensor a b }] } } })) ∧
    s.runTask .commit = .next { s with
      ses := goingOn { s.ses with sink := { pending := [], stored := s.ses.sink.stored ++ s.ses.sink.pending } } }

/-- What a unit of work that comes to nothing does to the handler, whatever the reason: of a PING, READ or SENSORS
exchange, or in a sweep, the unit is logged as a warning and skipped, the rest of the work stays, and with none left the
handler ends well; of a single-target command it is logged as an error and the whole handler fails with a command error;
no element of the block changes (R179, R222, R226, R227). That a READ or SENSORS frame asked for alone is skipped too, and
its handler ends well, is the model's reading (notes/assumptions/22.md), and that a failing single-target command is also
logged is (notes/assumptions/30.md); that the one is logged as a warning and the other as an error is its choice
(notes/assumptions/25.md). ERR answers an exchange with a device error; where no exchange awaits a reply nothing changes
(notes/assumptions/9.md). -/
def Obligations.ErrSkipsTheUnitOrFailsTheHandler : Prop :=
  (∀ (s : State) (p : Purpose) (why : CommandError),
    (p = .ping ∨ (∃ d k, p = .read d k) ∨ (∃ d, p = .sensors d) ∨ s.ses.multi = true →
      (s.ses.plan ≠ [] → s.skipOrFail p why = { s with ses := { s.ses with
        awaiting := none, log := s.ses.log ++ [⟨.warning, .skipped p why⟩] } }) ∧
      (s.ses.plan = [] → s.skipOrFail p why = { s with ses := { s.ses with
        awaiting := none, multi := false, outcome := .ok, log := s.ses.log ++ [⟨.warning, .skipped p why⟩] } })) ∧
    ((∃ d k, p = .write d k) ∨ (∃ d, p = .load d) ∨ (∃ d, p = .exec d) ∨ (∃ d, p = .retr d) → s.ses.multi = false →
      s.skipOrFail p why = { s with ses := { s.ses with
        plan := [], awaiting := none, multi := false, outcome := .commandError why
        log := s.ses.log ++ [⟨.error, .failed p why⟩] } })) ∧
  (∀ (s : State) (f : FrameBody), s.st.busy = false →
    (∀ p, s.ses.awaiting = some p → exec (.err f) s = .next (s.skipOrFail p (.deviceError 0xFF))) ∧
    (s.ses.awaiting = none → exec (.err f) s = .next s))

/-- With the channel off every handler but status and power on is refused with a command error; status reports the flag;
power on sets it and power off, with the channel on, clears it and keeps the device list; none of this touches the block
(R191, R206, R228, R240). That power on runs with the channel off is the model's reading (notes/assumptions/12.md), and
that the block's elements survive a power-off its choice (notes/assumptions/29.md). -/
def Obligations.ChannelOffRefusesEveryOtherHandler : Prop :=
  ∀ (s : State) (h : Handler),
    (s.ses.chanOn = false → h ≠ .status → h ≠ .powerOn →
      s.invoke h = { s with ses := { s.ses with
        plan := [], awaiting := none, multi := false, outcome := .commandError .channelOff } }) ∧
    s.OnlySession (s.invoke .status) ∧ (s.invoke .status).ses.outcome = .status s.ses.chanOn ∧
    (s.invoke .status).ses.chanOn = s.ses.chanOn ∧
    s.OnlySession (s.invoke .powerOn) ∧ (s.invoke .powerOn).ses.chanOn = true ∧
    (s.invoke .powerOn).ses.outcome = .ok ∧ (s.invoke .powerOn).ses.devices = s.ses.devices ∧
    (s.ses.chanOn = true → s.OnlySession (s.invoke .powerOff) ∧ (s.invoke .powerOff).ses.chanOn = false ∧
      (s.invoke .powerOff).ses.outcome = .ok ∧ (s.invoke .powerOff).ses.devices = s.ses.devices)

/-- The end of PING, when the agents inside move, the block is idle and the reading of its replies comes first in the
session's work. In the order of the replies, each that fails its check is dropped with a warning, and each that passes it
and is an ERR or carries a reserved command is logged with one and skipped (R179, R180, R226; the level:
notes/assumptions/25.md). The device list is replaced as a whole by the devices of the other replies, in order, duplicates
kept and whichever of the eight other commands they carry (that R226's skipping holds of R193's list:
notes/assumptions/34.md), and the handler goes on with what is left or ends well; where that leaves none the list stays:
it is a hard error when some device was known before, and otherwise the handler ends, reporting so or not, a free value
(R193, R194, R238, U13; notes/assumptions/10.md). Nothing else changes. That the new list goes to the log too, at
informational level, is the model's choice (notes/assumptions/25.md). -/
def Obligations.PingReplacesTheDeviceList : Prop :=
  ∀ (s : State) (rest : List Input) (tasks : List Task), s.Turn rest → s.tx.phase = .idle → s.fr.phase = .idle →
    s.ses.plan = .consult .ping :: tasks →
    let replies : List (Packet × Bool) := s.fr.packets.zip s.fr.crcOk
    let good : List (Packet × Bool) :=
      replies.filter fun r => r.2 = true ∧ 1 ≤ r.1.command.toNat ∧ r.1.command.toNat ≤ 8
    let found : List Device := good.map fun r =>
      { uid := uidString r.1.uid, pic := r.1.pic, sramSize := r.1.options.toNat }
    let log : List LogLine :=
      s.ses.log ++ replies.filterMap fun r =>
        if r.2 = false then some ⟨.warning, .frameDropped r.1⟩
        else if r.1.command.toNat = 0 ∨ 9 ≤ r.1.command.toNat then some ⟨.warning, .errorReply r.1⟩
        else none
    let replaced : Session :=
      { s.ses with devices := found, plan := tasks, awaiting := none, log := log ++ [⟨.informational, .chain found⟩] }
    let ended (o : HandlerOutcome) : Session :=
      { s.ses with plan := [], awaiting := none, multi := false, outcome := o, log := log }
    (found ≠ [] → tasks ≠ [] → step s = .next { s with script := rest, ses := replaced }) ∧
    (found ≠ [] → tasks = [] →
      step s = .next { s with script := rest, ses := { replaced with multi := false, outcome := .ok } }) ∧
    (found = [] → s.ses.devices ≠ [] → step s = .next { s with script := rest, ses := ended .hardError }) ∧
    (found = [] → s.ses.devices = [] →
      ∃ b, step s = .next { s with script := rest, free := s.free + 1, ses := ended (.emptyChain b) })

/-- READ of a chain, for `DATA_SIZE >= 1`, with the channel on and some device known: for each device in list order one
READ request for each region offset from 0 to the last, then one commit, as a multi-target command; the block is not yet
touched (R195, R227, D25). -/
def Obligations.ReadSweepsEveryRegionOfEveryDevice : Prop :=
  ∀ s : State, s.ses.chanOn = true → s.ses.devices ≠ [] → 1 ≤ s.cfg.dataSize →
    s.OnlySession (s.invoke .read) ∧ (s.invoke .read).ses.outcome = .running ∧ (s.invoke .read).ses.multi = true ∧
    (s.invoke .read).ses.plan = s.ses.devices.flatMap fun d =>
      (List.range (d.sramSize / s.cfg.dataSize)).map (fun k => Task.command (.read
        { pic := d.pic, options := BitVec.ofNat 32 k, uid := d.uid ++ List.replicate (25 - d.uid.length) 0
          data := List.replicate s.cfg.dataSize 0, checksum := 0 })) ++ [.commit]

/-- WRITE by UID, for `DATA_SIZE >= 1`: an offset from 0 up to and including `floor(sram_size / DATA_SIZE)` is accepted
and one WRITE packet laid out, a single-target command; any other, negative ones too, is a range error before any I/O
(R197, C7). The device is the first in the list with the UID, the model's choice (notes/assumptions/21.md). -/
def Obligations.WriteHandlerAcceptsTheInclusiveBound : Prop :=
  ∀ (s : State) (uid payload : List Byte) (offset : Int) (d : Device), s.ses.chanOn = true → 1 ≤ s.cfg.dataSize →
    s.ses.devices.find? (fun e => e.uid == uid) = some d →
    s.OnlySession (s.invoke (.write uid offset payload)) ∧
    (0 ≤ offset → offset ≤ (d.sramSize / s.cfg.dataSize : Nat) →
      (s.invoke (.write uid offset payload)).ses.plan = [.command (.write
        { pic := d.pic, options := BitVec.ofInt 32 offset, uid := d.uid ++ List.replicate (25 - d.uid.length) 0
          data := payload, checksum := 0 })] ∧
      (s.invoke (.write uid offset payload)).ses.outcome = .running ∧
      (s.invoke (.write uid offset payload)).ses.multi = false) ∧
    (offset < 0 ∨ (d.sramSize / s.cfg.dataSize : Nat) < offset →
      (s.invoke (.write uid offset payload)).ses.plan = [] ∧
      (s.invoke (.write uid offset payload)).ses.outcome =
        .commandError (.offsetRange offset (d.sramSize / s.cfg.dataSize)))

/-- The handlers' preconditions and requests with the channel on (R191, R193, R200 to R202, R204, R228): PING asks the
chain; a handler that names a UID no known device has is refused for it; LOAD of a source longer than `DATA_SIZE` is
refused and of any other lays out one LOAD with the source NUL-padded (D28), EXEC one EXEC with the reset flag, 0 when
absent (D24), RETR one RETR, to the first known device with the UID (notes/assumptions/21.md); a handler that sweeps the
list is refused when no device is known, and SENSORS lays out one SENSORS for each device in list order. Nothing but the
session changes. -/
def Obligations.HandlersLayOutTheirRequests : Prop :=
  ∀ s : State, s.ses.chanOn = true →
    let ended (e : CommandError) : State := { s with ses := { s.ses with
      plan := [], awaiting := none, multi := false, outcome := .commandError e } }
    let begun (multi : Bool) (plan : List Task) : State := { s with ses := { s.ses with
      plan := plan, awaiting := none, multi := multi, outcome := .running } }
    let request (d : Device) (options : Quad) (data : List Byte) : FrameBody :=
      { pic := d.pic, options := options, uid := d.uid ++ List.replicate (25 - d.uid.length) 0, data := data
        checksum := 0 }
    let blank : List Byte := List.replicate s.cfg.dataSize 0
    s.invoke .ping = begun false [.command (.ping
      { pic := 0, options := 0, uid := List.replicate 25 0, data := blank, checksum := 0 })] ∧
    (∀ (uid payload source : List Byte) (offset : Int) (flag : Option Quad),
      s.ses.devices.find? (fun e => e.uid == uid) = none →
      ∀ h ∈ [Handler.write uid offset payload, .load uid source, .exec uid flag, .retr uid],
        s.invoke h = ended (.unknownDevice uid)) ∧
    (∀ (uid source : List Byte) (flag : Option Quad) (d : Device),
      s.ses.devices.find? (fun e => e.uid == uid) = some d →
      (source.length ≤ s.cfg.dataSize → s.invoke (.load uid source) = begun false [.command (.load
        (request d 0 (source ++ List.replicate (s.cfg.dataSize - source.length) 0)))]) ∧
      (s.cfg.dataSize < source.length → s.invoke (.load uid source) = ended (.sourceTooLong source.length)) ∧
      s.invoke (.exec uid flag) = begun false [.command (.exec (request d (flag.getD 0) blank))] ∧
      s.invoke (.retr uid) = begun false [.command (.retr (request d 0 blank))]) ∧
    (s.ses.devices = [] → ∀ h ∈ [Handler.read, .writeInvert, .sensors], s.invoke h = ended .noDevices) ∧
    (s.ses.devices ≠ [] → s.invoke .sensors =
      begun true (s.ses.devices.map fun d => .command (.sensors (request d 0 blank))))

/-- WRITE_INVERT of a chain, with the channel on and some device known: the devices of the first half of the list, in
order, each at its turn, as a multi-target command (R227), which with one device known has nothing to do and ends well;
the block is not yet touched. At the turn of a device, for `DATA_SIZE >= 1`: when its stored
samples number exactly its regions, one WRITE for each offset from 5 to the count less 6, in order, with every byte of
that sample inverted, comes before the rest of the work; any other device is skipped with a warning; nothing else of the
session changes while work is left, and with none left the handler ends well. The samples are the device's own, ordered by
address and, at one address, by capture (R199, C4, D25; the sink: notes/assumptions/13.md). That they are those of all
sweeps together, and that the sample of an offset is the entry of that place in the list, is the model's choice
(notes/assumptions/33.md). -/
def Obligations.InvertRewritesTheInnerRegions : Prop :=
  (∀ s : State, s.ses.chanOn = true → s.ses.devices ≠ [] →
    s.OnlySession (s.invoke .writeInvert) ∧
    (s.invoke .writeInvert).ses.plan = (s.ses.devices.take (s.ses.devices.length / 2)).map .invert ∧
    (2 ≤ s.ses.devices.length →
      (s.invoke .writeInvert).ses.multi = true ∧ (s.invoke .writeInvert).ses.outcome = .running) ∧
    (s.ses.devices.length = 1 → (s.invoke .writeInvert).ses.outcome = .ok)) ∧
  (∀ (s : State) (d : Device), 1 ≤ s.cfg.dataSize →
    let n := d.sramSize / s.cfg.dataSize
    let samples := storedSamples s.ses.sink.stored d
    let writes : List Task := (List.range (n - 10)).map fun j => .command (.write
      { pic := d.pic, options := BitVec.ofNat 32 (5 + j), uid := d.uid ++ List.replicate (25 - d.uid.length) 0
        data := ((samples.map Record.bytes).getD (5 + j) []).map (· ^^^ 0xFF), checksum := 0 })
    let goingOn (v : Session) : Session :=
      if v.plan = [] then { v with awaiting := none, multi := false, outcome := .ok } else { v with awaiting := none }
    (samples.length = n → s.runTask (.invert d) =
      .next { s with ses := goingOn { s.ses with plan := writes ++ s.ses.plan } }) ∧
    (samples.length ≠ n → s.runTask (.invert d) = .next { s with ses := goingOn { s.ses with
      log := s.ses.log ++ [⟨.warning, .samplesIncomplete d samples.length n⟩] } })) ∧
  (∀ (stored : List Record) (d : Device),
    (storedSamples stored d).Perm (stored.filter (·.isSampleOf d)) ∧
    (storedSamples stored d).Pairwise (fun a b => a.offset ≤ b.offset) ∧
    ∀ k, (storedSamples stored d).filter (·.offset == k) =
      (stored.filter (·.isSampleOf d)).filter (·.offset == k))

/-- `offset_to_address`: it fails on a negative offset; otherwise it prints `0x` and the upper-case hexadecimal digits
of `sram_base + offset * data_size`, exactly eight of them, zero-padded, for an address of at most 32 bits, and for a
larger one all the digits it needs and no more; the default base is `0x20000000` (R209, D23). -/
def Obligations.AddressStringShowsTheAddress : Prop :=
  (∀ (ds : Nat) (offset : Int) (base : Nat),
    (offset < 0 → offsetToAddress ds offset base = none) ∧
    (0 ≤ offset → ∃ text : List Char, offsetToAddress ds offset base = some ('0' :: 'x' :: text) ∧
      (∀ c ∈ text, c ∈ ['0', '1', '2', '3', '4', '5', '6', '7', '8', '9', 'A', 'B', 'C', 'D', 'E', 'F']) ∧
      hexValue text = base + offset.toNat * ds ∧
      (base + offset.toNat * ds < 2 ^ 32 → text.length = 8) ∧
      (2 ^ 32 ≤ base + offset.toNat * ds → text.head? ≠ some '0'))) ∧
  (∀ (ds : Nat) (offset : Int), offsetToAddress ds offset = offsetToAddress ds offset 0x20000000) ∧
  offsetToAddress 512 3 = some ['0', 'x', '2', '0', '0', '0', '0', '6', '0', '0']

/-- The UID of R77: padding a string of at most 25 characters that does not end in NUL and stripping the field gives
the string back; the field has 25 bytes. -/
def Obligations.UidFieldKeepsTheString : Prop :=
  ∀ s : List Byte, s.length ≤ 25 → s.getLast? ≠ some 0 →
    (uidField s).length = 25 ∧ uidString (uidField s) = s
end

