-- ==== Sys2Proof/Laws/State.lean ====
section
/-! SUPPORT. One lemma per field per update of the state. -/

namespace Sys2Proof.Machine

section respondFields

variable (s : State) (r : Response)

@[simp] theorem respond_cfg : (s.respond r).cfg = s.cfg := rfl
@[simp] theorem respond_crcAcc : (s.respond r).crcAcc = s.crcAcc := rfl
@[simp] theorem respond_pkt : (s.respond r).pkt = s.pkt := rfl
@[simp] theorem respond_rx : (s.respond r).rx = s.rx := rfl
@[simp] theorem respond_tx : (s.respond r).tx = s.tx := rfl
@[simp] theorem respond_fr : (s.respond r).fr = s.fr := rfl
@[simp] theorem respond_st : (s.respond r).st = s.st := rfl
@[simp] theorem respond_resp : (s.respond r).resp = r := rfl
@[simp] theorem respond_ses : (s.respond r).ses = s.ses := rfl
@[simp] theorem respond_free : (s.respond r).free = s.free := rfl
@[simp] theorem respond_script : (s.respond r).script = s.script := rfl
@[simp] theorem respond_beat : (s.respond r).beat = s.beat := rfl

end respondFields

section finishFields

variable (s : State) (v : Value)

@[simp] theorem finish_cfg : (s.finish v).cfg = s.cfg := rfl
@[simp] theorem finish_crcAcc : (s.finish v).crcAcc = s.crcAcc := rfl
@[simp] theorem finish_pkt : (s.finish v).pkt = s.pkt := rfl
@[simp] theorem finish_rx : (s.finish v).rx = s.rx := rfl
@[simp] theorem finish_tx : (s.finish v).tx = s.tx := rfl
@[simp] theorem finish_fr : (s.finish v).fr = s.fr := rfl
@[simp] theorem finish_st : (s.finish v).st = { s.st with err := 0 } := rfl
@[simp] theorem finish_resp : (s.finish v).resp = .ok v := rfl
@[simp] theorem finish_ses : (s.finish v).ses = s.ses := rfl
@[simp] theorem finish_free : (s.finish v).free = s.free := rfl
@[simp] theorem finish_script : (s.finish v).script = s.script := rfl
@[simp] theorem finish_beat : (s.finish v).beat = s.beat := rfl

end finishFields

section raiseFields

variable (s : State) (e : BlockError)

@[simp] theorem raise_cfg : (s.raise e).cfg = s.cfg := rfl
@[simp] theorem raise_crcAcc : (s.raise e).crcAcc = s.crcAcc := rfl
@[simp] theorem raise_pkt : (s.raise e).pkt = s.pkt := rfl
@[simp] theorem raise_rx : (s.raise e).rx = s.rx := rfl
@[simp] theorem raise_tx : (s.raise e).tx = s.tx := rfl
@[simp] theorem raise_fr : (s.raise e).fr = s.fr := rfl
@[simp] theorem raise_st : (s.raise e).st = { err := e.code, busy := false } := rfl
@[simp] theorem raise_resp : (s.raise e).resp = .error e := rfl
@[simp] theorem raise_ses : (s.raise e).ses = s.ses := rfl
@[simp] theorem raise_free : (s.raise e).free = s.free := rfl
@[simp] theorem raise_script : (s.raise e).script = s.script := rfl
@[simp] theorem raise_beat : (s.raise e).beat = s.beat := rfl

end raiseFields

section setCrcFields

variable (s : State) (v : Half)

@[simp] theorem setCrc_cfg : (s.setCrc v).cfg = s.cfg := rfl
@[simp] theorem setCrc_crcAcc : (s.setCrc v).crcAcc = v := rfl
@[simp] theorem setCrc_pkt : (s.setCrc v).pkt = s.pkt := rfl
@[simp] theorem setCrc_rx : (s.setCrc v).rx = s.rx := rfl
@[simp] theorem setCrc_tx : (s.setCrc v).tx = s.tx := rfl
@[simp] theorem setCrc_fr : (s.setCrc v).fr = s.fr := rfl
@[simp] theorem setCrc_st : (s.setCrc v).st = s.st := rfl
@[simp] theorem setCrc_resp : (s.setCrc v).resp = s.resp := rfl
@[simp] theorem setCrc_ses : (s.setCrc v).ses = s.ses := rfl
@[simp] theorem setCrc_free : (s.setCrc v).free = s.free := rfl
@[simp] theorem setCrc_script : (s.setCrc v).script = s.script := rfl
@[simp] theorem setCrc_beat : (s.setCrc v).beat = s.beat := rfl

end setCrcFields

section setPktFields

variable (s : State) (p : PacketRegister)

@[simp] theorem setPkt_cfg : (s.setPkt p).cfg = s.cfg := rfl
@[simp] theorem setPkt_crcAcc : (s.setPkt p).crcAcc = s.crcAcc := rfl
@[simp] theorem setPkt_pkt : (s.setPkt p).pkt = p := rfl
@[simp] theorem setPkt_rx : (s.setPkt p).rx = s.rx := rfl
@[simp] theorem setPkt_tx : (s.setPkt p).tx = s.tx := rfl
@[simp] theorem setPkt_fr : (s.setPkt p).fr = s.fr := rfl
@[simp] theorem setPkt_st : (s.setPkt p).st = s.st := rfl
@[simp] theorem setPkt_resp : (s.setPkt p).resp = s.resp := rfl
@[simp] theorem setPkt_ses : (s.setPkt p).ses = s.ses := rfl
@[simp] theorem setPkt_free : (s.setPkt p).free = s.free := rfl
@[simp] theorem setPkt_script : (s.setPkt p).script = s.script := rfl
@[simp] theorem setPkt_beat : (s.setPkt p).beat = s.beat := rfl

end setPktFields

section setRxFields

variable (s : State) (l : List Byte)

@[simp] theorem setRx_cfg : (s.setRx l).cfg = s.cfg := rfl
@[simp] theorem setRx_crcAcc : (s.setRx l).crcAcc = s.crcAcc := rfl
@[simp] theorem setRx_pkt : (s.setRx l).pkt = s.pkt := rfl
@[simp] theorem setRx_rx : (s.setRx l).rx = l := rfl
@[simp] theorem setRx_tx : (s.setRx l).tx = s.tx := rfl
@[simp] theorem setRx_fr : (s.setRx l).fr = s.fr := rfl
@[simp] theorem setRx_st : (s.setRx l).st = s.st := rfl
@[simp] theorem setRx_resp : (s.setRx l).resp = s.resp := rfl
@[simp] theorem setRx_ses : (s.setRx l).ses = s.ses := rfl
@[simp] theorem setRx_free : (s.setRx l).free = s.free := rfl
@[simp] theorem setRx_script : (s.setRx l).script = s.script := rfl
@[simp] theorem setRx_beat : (s.setRx l).beat = s.beat := rfl

end setRxFields

section setTxFields

variable (s : State) (t : Transmitter)

@[simp] theorem setTx_cfg : (s.setTx t).cfg = s.cfg := rfl
@[simp] theorem setTx_crcAcc : (s.setTx t).crcAcc = s.crcAcc := rfl
@[simp] theorem setTx_pkt : (s.setTx t).pkt = s.pkt := rfl
@[simp] theorem setTx_rx : (s.setTx t).rx = s.rx := rfl
@[simp] theorem setTx_tx : (s.setTx t).tx = t := rfl
@[simp] theorem setTx_fr : (s.setTx t).fr = s.fr := rfl
@[simp] theorem setTx_st : (s.setTx t).st = s.st := rfl
@[simp] theorem setTx_resp : (s.setTx t).resp = s.resp := rfl
@[simp] theorem setTx_ses : (s.setTx t).ses = s.ses := rfl
@[simp] theorem setTx_free : (s.setTx t).free = s.free := rfl
@[simp] theorem setTx_script : (s.setTx t).script = s.script := rfl
@[simp] theorem setTx_beat : (s.setTx t).beat = s.beat := rfl

end setTxFields

section setFrFields

variable (s : State) (f : FrameReceiver)

@[simp] theorem setFr_cfg : (s.setFr f).cfg = s.cfg := rfl
@[simp] theorem setFr_crcAcc : (s.setFr f).crcAcc = s.crcAcc := rfl
@[simp] theorem setFr_pkt : (s.setFr f).pkt = s.pkt := rfl
@[simp] theorem setFr_rx : (s.setFr f).rx = s.rx := rfl
@[simp] theorem setFr_tx : (s.setFr f).tx = s.tx := rfl
@[simp] theorem setFr_fr : (s.setFr f).fr = f := rfl
@[simp] theorem setFr_st : (s.setFr f).st = s.st := rfl
@[simp] theorem setFr_resp : (s.setFr f).resp = s.resp := rfl
@[simp] theorem setFr_ses : (s.setFr f).ses = s.ses := rfl
@[simp] theorem setFr_free : (s.setFr f).free = s.free := rfl
@[simp] theorem setFr_script : (s.setFr f).script = s.script := rfl
@[simp] theorem setFr_beat : (s.setFr f).beat = s.beat := rfl

end setFrFields

section setBusyFields

variable (s : State) (b : Bool)

@[simp] theorem setBusy_cfg : (s.setBusy b).cfg = s.cfg := rfl
@[simp] theorem setBusy_crcAcc : (s.setBusy b).crcAcc = s.crcAcc := rfl
@[simp] theorem setBusy_pkt : (s.setBusy b).pkt = s.pkt := rfl
@[simp] theorem setBusy_rx : (s.setBusy b).rx = s.rx := rfl
@[simp] theorem setBusy_tx : (s.setBusy b).tx = s.tx := rfl
@[simp] theorem setBusy_fr : (s.setBusy b).fr = s.fr := rfl
@[simp] theorem setBusy_st : (s.setBusy b).st = { s.st with busy := b } := rfl
@[simp] theorem setBusy_resp : (s.setBusy b).resp = s.resp := rfl
@[simp] theorem setBusy_ses : (s.setBusy b).ses = s.ses := rfl
@[simp] theorem setBusy_free : (s.setBusy b).free = s.free := rfl
@[simp] theorem setBusy_script : (s.setBusy b).script = s.script := rfl
@[simp] theorem setBusy_beat : (s.setBusy b).beat = s.beat := rfl

end setBusyFields

section setSesFields

variable (s : State) (v : Session)

@[simp] theorem setSes_cfg : (s.setSes v).cfg = s.cfg := rfl
@[simp] theorem setSes_crcAcc : (s.setSes v).crcAcc = s.crcAcc := rfl
@[simp] theorem setSes_pkt : (s.setSes v).pkt = s.pkt := rfl
@[simp] theorem setSes_rx : (s.setSes v).rx = s.rx := rfl
@[simp] theorem setSes_tx : (s.setSes v).tx = s.tx := rfl
@[simp] theorem setSes_fr : (s.setSes v).fr = s.fr := rfl
@[simp] theorem setSes_st : (s.setSes v).st = s.st := rfl
@[simp] theorem setSes_resp : (s.setSes v).resp = s.resp := rfl
@[simp] theorem setSes_ses : (s.setSes v).ses = v := rfl
@[simp] theorem setSes_free : (s.setSes v).free = s.free := rfl
@[simp] theorem setSes_script : (s.setSes v).script = s.script := rfl
@[simp] theorem setSes_beat : (s.setSes v).beat = s.beat := rfl

end setSesFields

section useFreeFields

variable (s : State)

@[simp] theorem useFree_cfg : s.useFree.cfg = s.cfg := rfl
@[simp] theorem useFree_crcAcc : s.useFree.crcAcc = s.crcAcc := rfl
@[simp] theorem useFree_pkt : s.useFree.pkt = s.pkt := rfl
@[simp] theorem useFree_rx : s.useFree.rx = s.rx := rfl
@[simp] theorem useFree_tx : s.useFree.tx = s.tx := rfl
@[simp] theorem useFree_fr : s.useFree.fr = s.fr := rfl
@[simp] theorem useFree_st : s.useFree.st = s.st := rfl
@[simp] theorem useFree_resp : s.useFree.resp = s.resp := rfl
@[simp] theorem useFree_ses : s.useFree.ses = s.ses := rfl
@[simp] theorem useFree_free : s.useFree.free = s.free + 1 := rfl
@[simp] theorem useFree_script : s.useFree.script = s.script := rfl
@[simp] theorem useFree_beat : s.useFree.beat = s.beat := rfl

end useFreeFields

section rxFlushFields

variable (s : State)

@[simp] theorem rxFlush_cfg : s.rxFlush.cfg = s.cfg := rfl
@[simp] theorem rxFlush_crcAcc : s.rxFlush.crcAcc = s.crcAcc := rfl
@[simp] theorem rxFlush_pkt : s.rxFlush.pkt = s.pkt := rfl
@[simp] theorem rxFlush_rx : s.rxFlush.rx = [] := rfl
@[simp] theorem rxFlush_tx : s.rxFlush.tx = s.tx := rfl
@[simp] theorem rxFlush_fr : s.rxFlush.fr = s.fr := rfl
@[simp] theorem rxFlush_st : s.rxFlush.st = s.st := rfl
@[simp] theorem rxFlush_resp : s.rxFlush.resp = s.resp := rfl
@[simp] theorem rxFlush_ses : s.rxFlush.ses = s.ses := rfl
@[simp] theorem rxFlush_free : s.rxFlush.free = s.free := rfl
@[simp] theorem rxFlush_script : s.rxFlush.script = s.script := rfl
@[simp] theorem rxFlush_beat : s.rxFlush.beat = s.beat := rfl

end rxFlushFields

section txPushFields

variable (s : State) (b : Byte)

@[simp] theorem txPush_cfg : (s.txPush b).cfg = s.cfg := rfl
@[simp] theorem txPush_crcAcc : (s.txPush b).crcAcc = s.crcAcc := rfl
@[simp] theorem txPush_pkt : (s.txPush b).pkt = s.pkt := rfl
@[simp] theorem txPush_rx : (s.txPush b).rx = s.rx := rfl
@[simp] theorem txPush_tx : (s.txPush b).tx = { s.tx with stream := s.tx.stream ++ [b] } := rfl
@[simp] theorem txPush_fr : (s.txPush b).fr = s.fr := rfl
@[simp] theorem txPush_st : (s.txPush b).st = s.st := rfl
@[simp] theorem txPush_resp : (s.txPush b).resp = s.resp := rfl
@[simp] theorem txPush_ses : (s.txPush b).ses = s.ses := rfl
@[simp] theorem txPush_free : (s.txPush b).free = s.free := rfl
@[simp] theorem txPush_script : (s.txPush b).script = s.script := rfl
@[simp] theorem txPush_beat : (s.txPush b).beat = s.beat := rfl

end txPushFields

section envPushFields

variable (s : State) (b : Byte)

@[simp] theorem envPush_cfg : (s.envPush b).cfg = s.cfg := rfl
@[simp] theorem envPush_crcAcc : (s.envPush b).crcAcc = s.crcAcc := rfl
@[simp] theorem envPush_pkt : (s.envPush b).pkt = s.pkt := rfl
@[simp] theorem envPush_rx : (s.envPush b).rx = s.rx ++ [b] := rfl
@[simp] theorem envPush_tx : (s.envPush b).tx = s.tx := rfl
@[simp] theorem envPush_fr : (s.envPush b).fr = s.fr := rfl
@[simp] theorem envPush_st : (s.envPush b).st = s.st := rfl
@[simp] theorem envPush_resp : (s.envPush b).resp = s.resp := rfl
@[simp] theorem envPush_ses : (s.envPush b).ses = s.ses := rfl
@[simp] theorem envPush_free : (s.envPush b).free = s.free := rfl
@[simp] theorem envPush_script : (s.envPush b).script = s.script := rfl
@[simp] theorem envPush_beat : (s.envPush b).beat = s.beat := rfl

end envPushFields

section leaveFields

variable (s : State)

@[simp] theorem leave_cfg : s.leave.cfg = s.cfg := rfl
@[simp] theorem leave_crcAcc : s.leave.crcAcc = s.crcAcc := rfl
@[simp] theorem leave_pkt : s.leave.pkt = s.pkt := rfl
@[simp] theorem leave_rx : s.leave.rx = s.rx := rfl
@[simp] theorem leave_tx : s.leave.tx = { s.tx with phase := .idle, todo := [] } := rfl
@[simp] theorem leave_fr : s.leave.fr = { s.fr with phase := .idle } := rfl
@[simp] theorem leave_st : s.leave.st = s.st := rfl
@[simp] theorem leave_resp : s.leave.resp = s.resp := rfl
@[simp] theorem leave_ses : s.leave.ses = s.ses := rfl
@[simp] theorem leave_free : s.leave.free = s.free := rfl
@[simp] theorem leave_script : s.leave.script = s.script := rfl
@[simp] theorem leave_beat : s.leave.beat = s.beat := rfl

end leaveFields

section endHandlerFields

variable (s : State) (o : HandlerOutcome)

@[simp] theorem endHandler_cfg : (s.endHandler o).cfg = s.cfg := rfl
@[simp] theorem endHandler_crcAcc : (s.endHandler o).crcAcc = s.crcAcc := rfl
@[simp] theorem endHandler_pkt : (s.endHandler o).pkt = s.pkt := rfl
@[simp] theorem endHandler_rx : (s.endHandler o).rx = s.rx := rfl
@[simp] theorem endHandler_tx : (s.endHandler o).tx = s.tx := rfl
@[simp] theorem endHandler_fr : (s.endHandler o).fr = s.fr := rfl
@[simp] theorem endHandler_st : (s.endHandler o).st = s.st := rfl
@[simp] theorem endHandler_resp : (s.endHandler o).resp = s.resp := rfl
@[simp] theorem endHandler_ses : (s.endHandler o).ses = { s.ses with plan := [], awaiting := none, multi := false, outcome := o } := rfl
@[simp] theorem endHandler_free : (s.endHandler o).free = s.free := rfl
@[simp] theorem endHandler_script : (s.endHandler o).script = s.script := rfl
@[simp] theorem endHandler_beat : (s.endHandler o).beat = s.beat := rfl

end endHandlerFields

end Sys2Proof.Machine
end

