-- ==== Sys2Proof/Laws/Ops.lean ====
section
/-! SUPPORT. What the shared operations over the state can do, said once: serving a request, the error outcome, the
session's updates, which touch the session alone. -/

namespace Sys2Proof.Machine

/-! ### Serving a request -/

/-- A served request answers a next state: `Busy` with nothing else changed, or the operation's own. -/
theorem serve_next (s : State) (run : State → State) :
    s.serve run = .next (if s.st.busy then s.respond (.error .busy) else run s) := by
  unfold State.serve; split <;> simp_all

theorem serve_idle {s : State} (h : s.st.busy = false) (run : State → State) : s.serve run = .next (run s) := by
  simp [State.serve, h]

theorem serve_busy {s : State} (h : s.st.busy = true) (run : State → State) :
    s.serve run = .next (s.respond (.error .busy)) := by
  simp [State.serve, h]

/-- If a served request answers `t`, then `t` is one of the two. -/
theorem serve_cases {s t : State} {run : State → State} (h : s.serve run = .next t) :
    s.st.busy = true ∧ t = s.respond (.error .busy) ∨ s.st.busy = false ∧ t = run s := by
  unfold State.serve at h; split at h <;> simp_all

/-! ### Updates of the session alone -/

theorem onlySession_refl (s : State) : s.OnlySession s := rfl

theorem onlySession_trans {s t u : State} (h₁ : s.OnlySession t) (h₂ : t.OnlySession u) : s.OnlySession u := by
  unfold State.OnlySession at *; rw [h₂, h₁]

theorem onlySession_setSes (s : State) (v : Session) : s.OnlySession (s.setSes v) := rfl

theorem onlySession_endHandler (s : State) (o : HandlerOutcome) : s.OnlySession (s.endHandler o) := rfl

theorem onlySession_emit (s : State) (level : LogLevel) (e : LogEntry) : s.OnlySession (s.emit level e) := rfl

theorem onlySession_setPlan (s : State) (plan : List Task) : s.OnlySession (s.setPlan plan) := rfl

theorem onlySession_useFree (s : State) : s.OnlySession s.useFree := rfl

theorem onlySession_insert (s : State) (uid : List Byte) (b : RecordBody) : s.OnlySession (s.insert uid b) := rfl

theorem onlySession_goOn (s : State) : s.OnlySession s.goOn := by
  unfold State.goOn; split <;> rfl

theorem onlySession_skipOrFail (s : State) (p : Purpose) (why : CommandError) : s.OnlySession (s.skipOrFail p why) := by
  unfold State.skipOrFail; split
  · exact onlySession_trans (onlySession_emit _ _ _) (onlySession_goOn _)
  · rfl

theorem onlySession_beginExchange (s : State) (c : Byte) (f : FrameBody) (p : Purpose) :
    s.OnlySession (s.beginExchange c f p) := rfl

theorem onlySession_withDevice (s : State) (found : Option Device) (absent : CommandError) (k : Device → State)
    (hk : ∀ d, s.OnlySession (k d)) : s.OnlySession (s.withDevice found absent k) := by
  unfold State.withDevice; split
  · split
    · exact hk _
    · rfl
  · rfl

theorem onlySession_requestTo (s : State) (c : Byte) (b : Bool) (f : FrameBody) (p : Device → Purpose) :
    s.OnlySession (s.requestTo c b f p) :=
  onlySession_withDevice _ _ _ _ fun _ => rfl

theorem onlySession_acceptReply (s : State) (c : Byte) (f : FrameBody) (p : Purpose) :
    s.OnlySession (s.acceptReply c f p) := by
  cases p with
  | read d k => exact onlySession_trans (onlySession_insert _ _ _) (onlySession_goOn _)
  | exec d =>
    simp only [State.acceptReply]; split
    · exact onlySession_goOn _
    · rfl
  | ping => exact onlySession_goOn _
  | write d k => exact onlySession_goOn _
  | load d => exact onlySession_goOn _
  | retr d => rfl
  | sensors d => rfl

/-! ### Awaiting a reply is over after the session's updates -/

@[simp] theorem goOn_awaiting (s : State) : s.goOn.ses.awaiting = none := by
  unfold State.goOn; split <;> rfl

@[simp] theorem skipOrFail_awaiting (s : State) (p : Purpose) (why : CommandError) :
    (s.skipOrFail p why).ses.awaiting = none := by
  unfold State.skipOrFail; split <;> simp

@[simp] theorem acceptReply_awaiting (s : State) (c : Byte) (f : FrameBody) (p : Purpose) :
    (s.acceptReply c f p).ses.awaiting = none := by
  cases p <;> simp [State.acceptReply]
  split <;> simp

/-! ### A running call given up -/

theorem giveUp_cases (s : State) (e : BlockError) :
    s.giveUp e = s.leave.raise e ∨ s.giveUp e = (s.leave.raise e).endHandler (.blockError e) := by
  unfold State.giveUp; split <;> simp

end Sys2Proof.Machine
end

