-- ==== Sys2Proof/Laws/Codec.lean ====
section
/-! SUPPORT. The frame layout: lengths, and taking a frame apart and building it again. -/

namespace Sys2Proof.Machine

@[simp] theorem toLe16_length (v : Half) : (toLe16 v).length = 2 := rfl

@[simp] theorem toLe32_length (v : Quad) : (toLe32 v).length = 4 := rfl

/-- The length of a frame is the sum of its fields' (R70, R111). -/
theorem serialize_length (c p : Byte) (o : Quad) (u d : List Byte) (k : Half) :
    (serialize c p o u d k).length = 8 + u.length + d.length := by
  simp [serialize]; omega

/-- Little-endian halves: assembling undoes disassembling (R11). -/
theorem le16_toLe16 (v : Half) : le16 (toLe16 v) 0 = v := by
  apply BitVec.eq_of_toNat_eq
  simp [le16, toLe16, byteAt, Nat.shiftRight_eq_div_pow]
  omega

/-- Little-endian words: assembling undoes disassembling (R11). -/
theorem le32_toLe32 (v : Quad) : le32 (toLe32 v) 0 = v := by
  apply BitVec.eq_of_toNat_eq
  simp [le32, toLe32, byteAt, Nat.shiftRight_eq_div_pow]
  omega

/-- Disassembling undoes assembling, for two bytes (R11). -/
theorem toLe16_le16 (a b : Byte) : toLe16 (le16 [a, b] 0) = [a, b] := by
  have h0 : (le16 [a, b] 0).extractLsb' 0 8 = a := by
    apply BitVec.eq_of_toNat_eq; simp [le16, byteAt]; omega
  have h1 : (le16 [a, b] 0).extractLsb' 8 8 = b := by
    apply BitVec.eq_of_toNat_eq; simp [le16, byteAt, Nat.shiftRight_eq_div_pow]; omega
  simp only [toLe16, h0, h1]

/-- Disassembling undoes assembling, for four bytes (R11). -/
theorem toLe32_le32 (a b c d : Byte) : toLe32 (le32 [a, b, c, d] 0) = [a, b, c, d] := by
  have e0 : (le32 [a, b, c, d] 0).extractLsb' 0 8 = a := by
    apply BitVec.eq_of_toNat_eq; simp [le32, byteAt]; omega
  have e1 : (le32 [a, b, c, d] 0).extractLsb' 8 8 = b := by
    apply BitVec.eq_of_toNat_eq; simp [le32, byteAt, Nat.shiftRight_eq_div_pow]; omega
  have e2 : (le32 [a, b, c, d] 0).extractLsb' 16 8 = c := by
    apply BitVec.eq_of_toNat_eq; simp [le32, byteAt, Nat.shiftRight_eq_div_pow]; omega
  have e3 : (le32 [a, b, c, d] 0).extractLsb' 24 8 = d := by
    apply BitVec.eq_of_toNat_eq; simp [le32, byteAt, Nat.shiftRight_eq_div_pow]; omega
  simp only [toLe32, e0, e1, e2, e3]

/-- The fields of a well-formed frame come back out of its bytes (R86, R127). -/
theorem frameFields_frameBytes (ds : Nat) (c : Byte) (f : FrameBody) (h : f.wf ds = true) :
    frameFields ds (frameBytes c f) = f := by
  obtain ⟨pic, options, uid, data, checksum⟩ := f
  simp only [FrameBody.wf, FrameBody.uidFits, FrameBody.dataFits, Bool.and_eq_true, beq_iff_eq, uidLen] at h
  obtain ⟨hu, hd⟩ := h
  have hq : le32 (frameBytes c ⟨pic, options, uid, data, checksum⟩) 2 = options := by
    conv => rhs; rw [← le32_toLe32 options]
    simp [le32, frameBytes, serialize, byteAt, toLe32, List.getD]
  have hsplit : frameBytes c ⟨pic, options, uid, data, checksum⟩ =
      ([c, pic] ++ toLe32 options ++ uid ++ data) ++ toLe16 checksum := rfl
  have hlen : ([c, pic] ++ toLe32 options ++ uid ++ data).length = 31 + ds := by simp [hu, hd]; omega
  have hk : le16 (frameBytes c ⟨pic, options, uid, data, checksum⟩) (headerSize + ds) = checksum := by
    conv => rhs; rw [← le16_toLe16 checksum]
    rw [hsplit]
    simp only [le16, byteAt, List.getD, headerSize]
    rw [List.getElem?_append_right (by omega), List.getElem?_append_right (by omega), hlen]
    simp
  have h1 : slice (frameBytes c ⟨pic, options, uid, data, checksum⟩) 6 uidLen = uid := by
    simp [slice, frameBytes, serialize, toLe32, uidLen, ← hu]
  have h2 : slice (frameBytes c ⟨pic, options, uid, data, checksum⟩) headerSize ds = data := by
    simp only [slice, frameBytes, serialize, toLe32, headerSize, List.cons_append, List.nil_append, List.append_assoc]
    have h31 : (31 : Nat) = uid.length + 6 := by omega
    rw [h31]
    simp only [List.drop_succ_cons, List.drop_left]
    rw [← hd, List.take_left]
  simp only [frameFields, hq, hk, h1, h2]
  simp [frameBytes, serialize, byteAt]

theorem frameBytes_length (c : Byte) (f : FrameBody) (ds : Nat) (h : f.wf ds = true) :
    (frameBytes c f).length = frameSize ds := by
  simp only [FrameBody.wf, FrameBody.uidFits, FrameBody.dataFits, Bool.and_eq_true, beq_iff_eq, uidLen] at h
  rw [frameBytes, serialize_length, h.1, h.2]; rfl

/-- A list of `n + 2` bytes is its first `n` and two more. -/
theorem eq_take_append_pair (l : List Byte) (n : Nat) (h : l.length = n + 2) :
    l = l.take n ++ [byteAt l n, byteAt l (n + 1)] := by
  conv => lhs; rw [← List.take_append_drop n l]
  congr 1
  have h0 : n < l.length := by omega
  have h1 : n + 1 < l.length := by omega
  rw [List.drop_eq_getElem_cons h0, List.drop_eq_getElem_cons h1, List.drop_of_length_le (by omega)]
  simp [byteAt, List.getD, h0, h1]

/-- The bytes of a frame come back out of its fields (R86, R122). -/
theorem frameBytes_frameFields (ds : Nat) (raw : List Byte) (h : raw.length = frameSize ds) :
    frameBytes (byteAt raw 0) (frameFields ds raw) = raw := by
  match raw, h with
  | b0 :: b1 :: b2 :: b3 :: b4 :: b5 :: rest, h =>
    simp only [frameSize, List.length_cons] at h
    have hq : toLe32 (le32 (b0 :: b1 :: b2 :: b3 :: b4 :: b5 :: rest) 2) = [b2, b3, b4, b5] :=
      toLe32_le32 b2 b3 b4 b5
    have hk : toLe16 (le16 (b0 :: b1 :: b2 :: b3 :: b4 :: b5 :: rest) (headerSize + ds)) =
        [byteAt rest (25 + ds), byteAt rest (25 + ds + 1)] := by
      have e : le16 (b0 :: b1 :: b2 :: b3 :: b4 :: b5 :: rest) (headerSize + ds) =
          le16 [byteAt rest (25 + ds), byteAt rest (25 + ds + 1)] 0 := by
        have e1 : headerSize + ds = 25 + ds + 6 := by simp only [headerSize]; omega
        simp [e1, le16, byteAt, List.getD]
      rw [e, toLe16_le16]
    have hd : slice (b0 :: b1 :: b2 :: b3 :: b4 :: b5 :: rest) headerSize ds = (rest.drop 25).take ds := by
      simp [slice, headerSize]
    have hsplit : rest = rest.take (25 + ds) ++ [byteAt rest (25 + ds), byteAt rest (25 + ds + 1)] :=
      eq_take_append_pair rest (25 + ds) (by omega)
    simp only [frameBytes, frameFields, serialize, hq, hk, hd]
    conv => rhs; rw [hsplit, List.take_add]
    simp [byteAt, slice, uidLen]
  | [], h => simp [frameSize] at h; omega
  | [_], h => simp [frameSize] at h; omega
  | [_, _], h => simp [frameSize] at h; omega
  | [_, _, _], h => simp [frameSize] at h; omega
  | [_, _, _, _], h => simp [frameSize] at h; omega
  | [_, _, _, _, _], h => simp [frameSize] at h; omega

/-- The fields of a frame have the widths of R70. -/
theorem frameFields_wf (ds : Nat) (raw : List Byte) (h : raw.length = frameSize ds) :
    (frameFields ds raw).wf ds = true := by
  simp only [frameSize] at h
  simp [FrameBody.wf, FrameBody.uidFits, FrameBody.dataFits, frameFields, slice, uidLen, headerSize, h]
  omega

/-! ### `PKT` keeps its invariant -/

theorem PacketRegister.inv_cleared (c : Config) : (PacketRegister.cleared c.dataSize).Inv c := by
  constructor <;> simp [PacketRegister.cleared, Config.frameLen]

theorem PacketRegister.inv_clear {c : Config} {p : PacketRegister} (h : p.Inv c) : p.clear.Inv c := by
  obtain ⟨h1, h2, h3, -, -, -⟩ := h
  constructor <;> simp_all [PacketRegister.clear]

/-- Setting a field of an uncrafted packet keeps the invariant, where the new fields keep their widths. -/
theorem PacketRegister.inv_mark {c : Config} {p : PacketRegister} (k : Nat) (hu : p.uid.length = uidLen)
    (hd : p.data.length = c.dataSize) (hw : p.wire.length = c.frameLen) (hc : p.crafted = false)
    (ha : p.crafted = p.cksAssigned) : (p.mark k).Inv c := by
  constructor <;> simp_all [PacketRegister.mark]

theorem PacketRegister.inv_craftWith {c : Config} {p : PacketRegister} (h : p.Inv c) (hf : p.full = true) (k : Half) :
    (p.craftWith k).Inv c := by
  obtain ⟨h1, h2, -, -, -, -⟩ := h
  constructor <;>
    simp_all [PacketRegister.craftWith, PacketRegister.full, Packet.serializeWith, serialize_length, uidLen,
      Config.frameLen, frameSize]

/-- `decode_fn` rebuilds the bytes it took apart (R122). -/
theorem decodeFn_serialize (ds : Nat) (raw : List Byte) (h : raw.length = frameSize ds) :
    (decodeFn ds raw).serializeWith (decodeFn ds raw).checksum = raw :=
  frameBytes_frameFields ds raw h

theorem PacketRegister.inv_decoded (c : Config) (raw : List Byte) (h : raw.length = c.frameLen) :
    (decodedRegister c.dataSize raw).Inv c := by
  have hw := frameFields_wf c.dataSize raw h
  simp only [FrameBody.wf, FrameBody.uidFits, FrameBody.dataFits, Bool.and_eq_true, beq_iff_eq, frameFields] at hw
  exact ⟨hw.1, hw.2, h, fun _ => rfl, rfl, fun _ => (decodeFn_serialize c.dataSize raw h).symm⟩

end Sys2Proof.Machine
end

