-- ==== Sys2Proof/Laws/Exec.lean ====
section
/-! SUPPORT. What every instruction can do, said once: it always answers a next state; a block operation leaves the
session alone; the block's invariant holds of every piece an instruction puts in its place. -/

namespace Sys2Proof.Machine

/-- Every instruction is a request that is served: `Busy` stands before everything else (R235). -/
theorem exec_served (i : Instr) (s : State) : ∃ run, exec i s = s.serve run := by
  cases i <;>
    simp only [exec, execAck, execPing, execRead, execWrite, execSensors, execLoad, execExec, execRetr, execErr,
      State.packetCommand] <;>
    exact ⟨_, rfl⟩

/-- Every instruction answers a next state, in every state. -/
theorem exec_answers (i : Instr) (s : State) : ∃ t, exec i s = .next t := by
  obtain ⟨run, h⟩ := exec_served i s
  exact ⟨_, h.trans (serve_next s run)⟩

/-- A busy block turns every instruction away with `Busy` and nothing else changes (R231). -/
theorem exec_busy (i : Instr) {s : State} (h : s.st.busy = true) : exec i s = .next (s.respond (.error .busy)) := by
  obtain ⟨run, hr⟩ := exec_served i s
  exact hr.trans (serve_busy h run)

/-! ### The block's invariant, piece by piece -/

/-- Only `cfg`, `pkt`, `tx`, `fr` and `ST.busy` matter to the block's invariant. -/
theorem blockInv_congr {s t : State} (hs : s.BlockInv) (hc : t.cfg = s.cfg) (hp : t.pkt = s.pkt) (ht : t.tx = s.tx)
    (hf : t.fr = s.fr) (hb : t.st.busy = s.st.busy) : t.BlockInv := by
  obtain ⟨h1, h2, h3, h4, h5⟩ := hs
  exact ⟨by rw [hc, hp]; exact h1, by rw [hc, hf]; exact h2, by rw [hb, ht, hf]; exact h3, by rw [ht, hf]; exact h4,
    by rw [ht]; exact h5⟩

theorem blockInv_onlySession {s t : State} (hs : s.BlockInv) (h : s.OnlySession t) : t.BlockInv := by
  unfold State.OnlySession at h
  rw [h]; exact blockInv_congr hs rfl rfl rfl rfl rfl

theorem blockInv_respond {s : State} (hs : s.BlockInv) (r : Response) : (s.respond r).BlockInv :=
  blockInv_congr hs rfl rfl rfl rfl rfl

theorem blockInv_finish {s : State} (hs : s.BlockInv) (v : Value) : (s.finish v).BlockInv :=
  blockInv_congr hs rfl rfl rfl rfl rfl

/-- An operation that raises in an idle block keeps the invariant. -/
theorem blockInv_raise {s : State} (hs : s.BlockInv) (hb : s.st.busy = false) (e : BlockError) :
    (s.raise e).BlockInv :=
  blockInv_congr hs rfl rfl rfl rfl hb.symm

theorem blockInv_setPkt {s : State} (hs : s.BlockInv) {p : PacketRegister} (hp : p.Inv s.cfg) :
    (s.setPkt p).BlockInv := by
  obtain ⟨-, h2, h3, h4, h5⟩ := hs
  exact ⟨hp, h2, h3, h4, h5⟩

/-- The receiver's invariant does not speak of its phase but in `Drain`. -/
theorem FrameReceiver.inv_phase {c : Config} {f : FrameReceiver} (h : f.Inv c) (p : ReceivePhase)
    (hp : p = .drain → f.iter < f.maxTries) : ({ f with phase := p } : FrameReceiver).Inv c := by
  obtain ⟨h1, -, h3, h4, h5, h6⟩ := h
  exact ⟨h1, hp, h3, h4, h5, h6⟩

theorem FrameReceiver.inv_start (c : Config) (timeout maxTries : Nat) : (FrameReceiver.start timeout maxTries).Inv c := by
  constructor <;> simp [FrameReceiver.start, Config.frameLen, frameSize]

/-- A running call given up leaves an idle block. -/
theorem blockInv_leave_raise {s : State} (hp : s.pkt.Inv s.cfg) (hf : s.fr.Inv s.cfg) (e : BlockError) :
    (s.leave.raise e).BlockInv :=
  ⟨hp, FrameReceiver.inv_phase hf _ (by simp), by simp, by simp, by simp⟩

theorem blockInv_setField {s : State} (hs : s.BlockInv) (hb : s.st.busy = false) (k : Nat) (p : PacketRegister)
    (hp : s.pkt.crafted = false → (p.mark k).Inv s.cfg) : (setField s k p).BlockInv := by
  unfold setField; split
  · exact blockInv_raise hs hb _
  · rename_i h
    exact blockInv_finish (blockInv_setPkt hs (hp (by simpa using h))) _

theorem blockInv_setSized {s : State} (hs : s.BlockInv) (hb : s.st.busy = false) (k : Nat) (fits : Bool) (n : Nat)
    (p : PacketRegister) (hp : s.pkt.crafted = false → fits = true → (p.mark k).Inv s.cfg) :
    (setSized s k fits n p).BlockInv := by
  unfold setSized; split
  · exact blockInv_raise hs hb _
  · split
    · rename_i h; exact blockInv_setField hs hb _ _ fun hc => hp hc h
    · exact blockInv_raise hs hb _

/-- A request served by an idle block keeps the invariant when its operation does. -/
theorem blockInv_serve {s t : State} {run : State → State} (hs : s.BlockInv)
    (hr : s.st.busy = false → (run s).BlockInv) (h : s.serve run = .next t) : t.BlockInv := by
  rcases serve_cases h with ⟨-, rfl⟩ | ⟨hb, rfl⟩
  · exact blockInv_respond hs _
  · exact hr hb

end Sys2Proof.Machine
end

