-- ==== Sys2Proof/Laws/PerInstr.lean ====
section
/-! SUPPORT. The statements made per instruction: the first byte of its encoding is the number spec/opcode_table.json
gives it, under the mask its row gives. -/

namespace Sys2Proof.Laws.HeadByte

/-- The number of an instruction in spec/opcode_table.json (R73, R82). -/
def code : Instr → Byte
  | .ack _ => 0x01
  | .ping _ => 0x02
  | .read _ => 0x03
  | .write _ => 0x04
  | .sensors _ => 0x05
  | .load _ => 0x06
  | .exec _ => 0x07
  | .retr _ => 0x08
  | .err _ => 0xFF
  | .crc16 _ => 0x01
  | .crcInit => 0x02
  | .crcByte _ => 0x03
  | .crcRead => 0x04
  | .pktClear => 0x08
  | .setCommand _ => 0x09
  | .setPic _ => 0x0A
  | .setOptions _ => 0x0B
  | .setUid _ => 0x0C
  | .setData _ => 0x0D
  | .getField _ => 0x0E
  | .craft => 0x10
  | .toBytes => 0x11
  | .decode _ => 0x12
  | .checkCrc => 0x13
  | .expectedSize => 0x14
  | .extractSensors => 0x15
  | .send _ => 0x18
  | .receiveFrames _ _ => 0x19

/-- The mask of its row: all eight bits of a frame's command byte (R73), bits 4:0 of an operation's (R82). -/
def mask : Instr → Byte := fun i =>
  match i.lane with
  | .frame => 0xFF
  | .operation => 0x1F

/-- The encoding begins with the row's number, alone under the row's mask. -/
def Statement (i : Instr) : Prop := (encode i).head? = some (code i) ∧ code i &&& mask i = code i

theorem ack (f : FrameBody) : Statement (.ack f) :=
  ⟨rfl, by simp only [code, mask, Instr.lane]; decide⟩
theorem ping (f : FrameBody) : Statement (.ping f) :=
  ⟨rfl, by simp only [code, mask, Instr.lane]; decide⟩
theorem read (f : FrameBody) : Statement (.read f) :=
  ⟨rfl, by simp only [code, mask, Instr.lane]; decide⟩
theorem write (f : FrameBody) : Statement (.write f) :=
  ⟨rfl, by simp only [code, mask, Instr.lane]; decide⟩
theorem sensors (f : FrameBody) : Statement (.sensors f) :=
  ⟨rfl, by simp only [code, mask, Instr.lane]; decide⟩
theorem load (f : FrameBody) : Statement (.load f) :=
  ⟨rfl, by simp only [code, mask, Instr.lane]; decide⟩
theorem exec (f : FrameBody) : Statement (.exec f) :=
  ⟨rfl, by simp only [code, mask, Instr.lane]; decide⟩
theorem retr (f : FrameBody) : Statement (.retr f) :=
  ⟨rfl, by simp only [code, mask, Instr.lane]; decide⟩
theorem err (f : FrameBody) : Statement (.err f) :=
  ⟨rfl, by simp only [code, mask, Instr.lane]; decide⟩
theorem crc16 (buffer : List Byte) : Statement (.crc16 buffer) :=
  ⟨rfl, by simp only [code, mask, Instr.lane]; decide⟩
theorem crcInit : Statement (.crcInit) :=
  ⟨rfl, by simp only [code, mask, Instr.lane]; decide⟩
theorem crcByte (b : Byte) : Statement (.crcByte b) :=
  ⟨rfl, by simp only [code, mask, Instr.lane]; decide⟩
theorem crcRead : Statement (.crcRead) :=
  ⟨rfl, by simp only [code, mask, Instr.lane]; decide⟩
theorem pktClear : Statement (.pktClear) :=
  ⟨rfl, by simp only [code, mask, Instr.lane]; decide⟩
theorem setCommand (c : Byte) : Statement (.setCommand c) :=
  ⟨rfl, by simp only [code, mask, Instr.lane]; decide⟩
theorem setPic (p : Byte) : Statement (.setPic p) :=
  ⟨rfl, by simp only [code, mask, Instr.lane]; decide⟩
theorem setOptions (v : Quad) : Statement (.setOptions v) :=
  ⟨rfl, by simp only [code, mask, Instr.lane]; decide⟩
theorem setUid (uid : List Byte) : Statement (.setUid uid) :=
  ⟨rfl, by simp only [code, mask, Instr.lane]; decide⟩
theorem setData (payload : List Byte) : Statement (.setData payload) :=
  ⟨rfl, by simp only [code, mask, Instr.lane]; decide⟩
theorem getField (field : Byte) : Statement (.getField field) :=
  ⟨rfl, by simp only [code, mask, Instr.lane]; decide⟩
theorem craft : Statement (.craft) :=
  ⟨rfl, by simp only [code, mask, Instr.lane]; decide⟩
theorem toBytes : Statement (.toBytes) :=
  ⟨rfl, by simp only [code, mask, Instr.lane]; decide⟩
theorem decode (raw : List Byte) : Statement (.decode raw) :=
  ⟨rfl, by simp only [code, mask, Instr.lane]; decide⟩
theorem checkCrc : Statement (.checkCrc) :=
  ⟨rfl, by simp only [code, mask, Instr.lane]; decide⟩
theorem expectedSize : Statement (.expectedSize) :=
  ⟨rfl, by simp only [code, mask, Instr.lane]; decide⟩
theorem extractSensors : Statement (.extractSensors) :=
  ⟨rfl, by simp only [code, mask, Instr.lane]; decide⟩
theorem send (bytes : List Byte) : Statement (.send bytes) :=
  ⟨rfl, by simp only [code, mask, Instr.lane]; decide⟩
theorem receiveFrames (timeout maxTries : Nat) : Statement (.receiveFrames timeout maxTries) :=
  ⟨rfl, by simp only [code, mask, Instr.lane]; decide⟩

end Sys2Proof.Laws.HeadByte
end

