-- ==== Sys2Proof/Laws/Step.lean ====
section
/-! SUPPORT. What the pieces of a step can do, said once for each: an instruction, a step of a running `SEND` or
`RECEIVE_FRAMES`, a task of the session, a handler invocation. -/

namespace Sys2Proof.Machine

/-! ### What comes next -/

/-- With the schedule not over, what is to come is the schedule. -/
theorem upcoming_of_script {s : State} {i : Input} {rest : List Input} (h : s.script = i :: rest) :
    s.upcoming = i :: rest := by simp [State.upcoming, h]

/-- After the schedule come the beat and a turn. -/
theorem upcoming_of_nil {s : State} (h : s.script = []) : s.upcoming = s.beat ++ [.turn] := by simp [State.upcoming, h]

/-- Something is always to come. -/
theorem upcoming_ne_nil (s : State) : s.upcoming ≠ [] := by
  unfold State.upcoming; split <;> simp

/-- The next entry of the schedule takes effect, or waits while the agents inside move. -/
theorem step_of_upcoming {s : State} {i : Input} {rest : List Input} (h : s.upcoming = i :: rest) :
    step s = if s.defers i then s.advance else State.deliver { s with script := rest } i := by
  simp [step, State.runNext, h]

/-- The agents inside move. -/
theorem step_turn {s : State} {rest : List Input} (h : s.Turn rest) :
    step s = State.advance { s with script := rest } := by simp [step_of_upcoming h, State.defers, State.deliver]

/-- With the outside silent the agents inside move. -/
theorem step_of_silence {s : State} (h : s.script = []) (hb : s.beat = []) : step s = s.advance := by
  rw [step_turn (rest := []) (by simp [State.Turn, upcoming_of_nil h, hb]), ← h]

/-! ### What every piece leaves alone -/

/-- From `s` to `t` the parameters, the schedule and the beat, the line and the session's two elements of R39 stay, and `RX.fifo`
stays or was flushed by a `SEND` that has just been accepted. -/
structure State.Quiet (s t : State) : Prop where
  cfg : t.cfg = s.cfg
  script : t.script = s.script
  beat : t.beat = s.beat
  stream : t.tx.stream = s.tx.stream
  devices : t.ses.devices = s.ses.devices
  chanOn : t.ses.chanOn = s.ses.chanOn
  rx : t.rx = s.rx ∨ s.st.busy = false ∧ t.rx = [] ∧ t.st.busy = true ∧ t.tx.phase = .push

theorem quiet_refl (s : State) : s.Quiet s := ⟨rfl, rfl, rfl, rfl, rfl, rfl, .inl rfl⟩

/-- A change of the session that keeps its two elements of R39 is quiet. -/
theorem quiet_session {s t : State} (h : s.OnlySession t) (hd : t.ses.devices = s.ses.devices)
    (hc : t.ses.chanOn = s.ses.chanOn) : s.Quiet t := by
  unfold State.OnlySession at h
  refine ⟨?_, ?_, ?_, ?_, hd, hc, .inl ?_⟩ <;> rw [h]

theorem quiet_then_session {s t u : State} (h : s.Quiet t) (h' : t.OnlySession u)
    (hd : u.ses.devices = t.ses.devices) (hc : u.ses.chanOn = t.ses.chanOn) : s.Quiet u := by
  unfold State.OnlySession at h'
  obtain ⟨h1, h2, h3, h4, h5, h6, h7⟩ := h
  refine ⟨?_, ?_, ?_, ?_, hd.trans h5, hc.trans h6, ?_⟩ <;> rw [h'] <;> assumption

@[simp] theorem emit_devices (s : State) (level : LogLevel) (e : LogEntry) :
    (s.emit level e).ses.devices = s.ses.devices := rfl

@[simp] theorem emit_chanOn (s : State) (level : LogLevel) (e : LogEntry) :
    (s.emit level e).ses.chanOn = s.ses.chanOn := rfl

@[simp] theorem goOn_devices (s : State) : s.goOn.ses.devices = s.ses.devices := by
  unfold State.goOn; split <;> rfl

@[simp] theorem goOn_chanOn (s : State) : s.goOn.ses.chanOn = s.ses.chanOn := by
  unfold State.goOn; split <;> rfl

@[simp] theorem skipOrFail_devices (s : State) (p : Purpose) (why : CommandError) :
    (s.skipOrFail p why).ses.devices = s.ses.devices := by
  unfold State.skipOrFail; split <;> simp

@[simp] theorem skipOrFail_chanOn (s : State) (p : Purpose) (why : CommandError) :
    (s.skipOrFail p why).ses.chanOn = s.ses.chanOn := by
  unfold State.skipOrFail; split <;> simp

@[simp] theorem insert_devices (s : State) (uid : List Byte) (b : RecordBody) :
    (s.insert uid b).ses.devices = s.ses.devices := rfl

@[simp] theorem insert_chanOn (s : State) (uid : List Byte) (b : RecordBody) :
    (s.insert uid b).ses.chanOn = s.ses.chanOn := rfl

@[simp] theorem acceptReply_devices (s : State) (c : Byte) (f : FrameBody) (p : Purpose) :
    (s.acceptReply c f p).ses.devices = s.ses.devices := by
  cases p <;> simp [State.acceptReply]; split <;> simp

@[simp] theorem acceptReply_chanOn (s : State) (c : Byte) (f : FrameBody) (p : Purpose) :
    (s.acceptReply c f p).ses.chanOn = s.ses.chanOn := by
  cases p <;> simp [State.acceptReply]; split <;> simp

/-- What a packet command's request can do to the session: its two elements of R39 stay, and it awaits no reply it did
not await. -/
structure State.Asks (s t : State) : Prop where
  only : s.OnlySession t
  devices : t.ses.devices = s.ses.devices
  chanOn : t.ses.chanOn = s.ses.chanOn
  awaiting : t.ses.awaiting = s.ses.awaiting ∨ t.ses.awaiting = none

theorem asks_refl (s : State) : s.Asks s := ⟨rfl, rfl, rfl, .inl rfl⟩

theorem asks_endHandler (s : State) (o : HandlerOutcome) : s.Asks (s.endHandler o) := ⟨rfl, rfl, rfl, .inr rfl⟩

theorem asks_beginExchange (s : State) (c : Byte) (f : FrameBody) (p : Purpose) : s.Asks (s.beginExchange c f p) :=
  ⟨rfl, rfl, rfl, .inl rfl⟩

theorem asks_withDevice (s : State) (found : Option Device) (absent : CommandError) (k : Device → State)
    (hk : ∀ d, s.Asks (k d)) : s.Asks (s.withDevice found absent k) := by
  unfold State.withDevice; split
  · split
    · exact hk _
    · exact asks_endHandler _ _
  · exact asks_endHandler _ _

theorem asks_requestTo (s : State) (c : Byte) (b : Bool) (f : FrameBody) (p : Device → Purpose) :
    s.Asks (s.requestTo c b f p) :=
  asks_withDevice _ _ _ _ fun _ => asks_beginExchange _ _ _ _

/-! ### An instruction -/

/-- A packet command, in either of its two roles, changes the session alone; with the block idle it awaits no reply
afterwards, or the one awaited before. -/
theorem packetCommand_cases {s t : State} {request : State → State} {reply : Purpose → State → State}
    (hq : s.Asks (request s))
    (hr : ∀ p, s.OnlySession (reply p s) ∧ (reply p s).ses.devices = s.ses.devices ∧
      (reply p s).ses.chanOn = s.ses.chanOn ∧ (reply p s).ses.awaiting = none)
    (h : s.packetCommand request reply = .next t) :
    s.st.busy = true ∧ t = s.respond (.error .busy) ∨
      s.st.busy = false ∧ s.OnlySession t ∧ t.ses.devices = s.ses.devices ∧ t.ses.chanOn = s.ses.chanOn ∧
        t.ses.awaiting = none := by
  unfold State.packetCommand at h
  rcases serve_cases h with h | ⟨hb, rfl⟩
  · exact .inl h
  · refine .inr ⟨hb, ?_⟩
    split
    · exact ⟨(hr _).1, (hr _).2.1, (hr _).2.2.1, (hr _).2.2.2⟩
    · rename_i hn
      exact ⟨hq.only, hq.devices, hq.chanOn, hq.awaiting.elim (·.trans hn) id⟩

/-- Every packet command: turned away by a busy block, or a change of the session alone. -/
theorem exec_frame_cases {i : Instr} {s t : State} (hi : i.lane = .frame) (h : exec i s = .next t) :
    s.st.busy = true ∧ t = s.respond (.error .busy) ∨
      s.st.busy = false ∧ s.OnlySession t ∧ t.ses.devices = s.ses.devices ∧ t.ses.chanOn = s.ses.chanOn ∧
        t.ses.awaiting = none := by
  have hr : ∀ c f p, s.OnlySession (s.acceptReply c f p) ∧ (s.acceptReply c f p).ses.devices = s.ses.devices ∧
      (s.acceptReply c f p).ses.chanOn = s.ses.chanOn ∧ (s.acceptReply c f p).ses.awaiting = none :=
    fun c f p => ⟨onlySession_acceptReply s c f p, by simp, by simp, by simp⟩
  cases i with
  | ack f => simp only [exec, execAck] at h; exact packetCommand_cases (asks_refl s) (hr _ f) h
  | ping f =>
    simp only [exec, execPing] at h
    refine packetCommand_cases ?_ (hr _ f) h
    split
    · exact asks_beginExchange _ _ _ _
    · exact asks_endHandler _ _
  | read f => simp only [exec, execRead] at h; exact packetCommand_cases (asks_requestTo _ _ _ _ _) (hr _ f) h
  | write f =>
    simp only [exec, execWrite] at h
    refine packetCommand_cases (asks_withDevice _ _ _ _ fun d => ?_) (hr _ f) h
    split
    · exact asks_beginExchange _ _ _ _
    · exact asks_endHandler _ _
  | sensors f => simp only [exec, execSensors] at h; exact packetCommand_cases (asks_requestTo _ _ _ _ _) (hr _ f) h
  | load f => simp only [exec, execLoad] at h; exact packetCommand_cases (asks_requestTo _ _ _ _ _) (hr _ f) h
  | exec f => simp only [exec, execExec] at h; exact packetCommand_cases (asks_requestTo _ _ _ _ _) (hr _ f) h
  | retr f => simp only [exec, execRetr] at h; exact packetCommand_cases (asks_requestTo _ _ _ _ _) (hr _ f) h
  | err f =>
    simp only [exec, execErr] at h
    exact packetCommand_cases (asks_refl s) (fun p => ⟨onlySession_skipOrFail _ _ _, by simp, by simp, by simp⟩) h
  | _ => cases hi

/-- A block operation leaves the session, the parameters, the count of free values and the schedule alone. -/
theorem exec_operation_frame {i : Instr} {s t : State} (hi : i.lane = .operation) (h : exec i s = .next t) :
    t.ses = s.ses ∧ t.cfg = s.cfg ∧ t.free = s.free ∧ t.script = s.script ∧ t.beat = s.beat ∧ t.tx.stream = s.tx.stream ∧
      (t.rx = s.rx ∨ s.st.busy = false ∧ t.rx = [] ∧ t.st.busy = true ∧ t.tx.phase = .push) := by
  cases i with
  | ack | ping | read | write | sensors | load | exec | retr | err => cases hi
  | _ =>
    simp only [exec, execCrc16, execCrcInit, execCrcByte, execCrcRead, execPktClear, execSetCommand, execSetPic,
      execSetOptions, execSetUid, execSetData, execGetField, execCraft, execToBytes, execDecode, execCheckCrc,
      execExpectedSize, execExtractSensors, execSend, execReceiveFrames] at h
    rcases serve_cases h with ⟨-, rfl⟩ | ⟨hb, rfl⟩
    · simp
    · try simp only [setField, setSized]
      repeat' split
      all_goals simp [Transmitter.start, State.rxFlush, hb]

/-- Every instruction is quiet. -/
theorem exec_quiet {i : Instr} {s t : State} (h : exec i s = .next t) : s.Quiet t := by
  cases hi : i.lane with
  | operation =>
    obtain ⟨h1, h2, -, h4, h5, h6, h7⟩ := exec_operation_frame hi h
    exact ⟨h2, h4, h5, h6, by rw [h1], by rw [h1], h7⟩
  | frame =>
    rcases exec_frame_cases hi h with ⟨-, rfl⟩ | ⟨-, ho, hd, hc, -⟩
    · exact ⟨rfl, rfl, rfl, rfl, rfl, rfl, .inl rfl⟩
    · exact quiet_session ho hd hc

/-- Every instruction keeps the block's invariant. -/
theorem exec_blockInv {i : Instr} {s t : State} (hs : s.BlockInv) (h : exec i s = .next t) : t.BlockInv := by
  cases hi : i.lane with
  | frame =>
    rcases exec_frame_cases hi h with ⟨-, rfl⟩ | ⟨-, ho, -, -, -⟩
    · exact blockInv_respond hs _
    · exact blockInv_onlySession hs ho
  | operation =>
    have hp := hs.pkt
    cases i
    all_goals first
      | (cases hi; done)
      | simp only [exec, execCrc16, execCrcInit, execCrcByte, execCrcRead, execPktClear, execSetCommand, execSetPic,
          execSetOptions, execSetUid, execSetData, execGetField, execCraft, execToBytes, execDecode, execCheckCrc,
          execExpectedSize, execExtractSensors, execSend, execReceiveFrames] at h
    case crc16 b => exact blockInv_serve hs (fun _ => blockInv_finish hs _) h
    case crcInit => exact blockInv_serve hs (fun _ => blockInv_congr hs rfl rfl rfl rfl rfl) h
    case crcByte b => exact blockInv_serve hs (fun _ => blockInv_congr hs rfl rfl rfl rfl rfl) h
    case crcRead => exact blockInv_serve hs (fun _ => blockInv_finish hs _) h
    case pktClear => exact blockInv_serve hs (fun _ => blockInv_finish (blockInv_setPkt hs (PacketRegister.inv_clear hp)) _) h
    case setCommand c =>
      exact blockInv_serve hs (fun hb => blockInv_setField hs hb _ _ (fun hc =>
        PacketRegister.inv_mark (p := { s.pkt with command := c }) 0 hp.uid_width hp.data_width hp.wire_width hc hp.crafted_assigned)) h
    case setPic c =>
      exact blockInv_serve hs (fun hb => blockInv_setField hs hb _ _ (fun hc =>
        PacketRegister.inv_mark (p := { s.pkt with pic := c }) 1 hp.uid_width hp.data_width hp.wire_width hc hp.crafted_assigned)) h
    case setOptions c =>
      exact blockInv_serve hs (fun hb => blockInv_setField hs hb _ _ (fun hc =>
        PacketRegister.inv_mark (p := { s.pkt with options := c }) 2 hp.uid_width hp.data_width hp.wire_width hc hp.crafted_assigned)) h
    case setUid u =>
      refine blockInv_serve hs (fun hb => blockInv_setSized hs hb _ _ _ _ fun hc hl => ?_) h
      refine PacketRegister.inv_mark 3 ?_ hp.data_width hp.wire_width hc hp.crafted_assigned
      have : u.length ≤ uidLen := of_decide_eq_true hl
      simp [uidField, uidLen] at this ⊢; omega
    case setData d =>
      refine blockInv_serve hs (fun hb => blockInv_setSized hs hb _ _ _ _ fun hc hl => ?_) h
      exact PacketRegister.inv_mark 4 hp.uid_width (by simpa using hl) hp.wire_width hc hp.crafted_assigned
    case getField f =>
      refine blockInv_serve hs (fun hb => ?_) h
      split
      · exact blockInv_raise hs hb _
      · split
        · exact blockInv_finish hs _
        · exact blockInv_raise hs hb _
    case craft =>
      refine blockInv_serve hs (fun hb => ?_) h
      split
      · exact blockInv_finish hs _
      · split
        · rename_i hf
          exact blockInv_finish (blockInv_setPkt hs (PacketRegister.inv_craftWith hp hf _)) _
        · exact blockInv_raise hs hb _
    case toBytes =>
      refine blockInv_serve hs (fun hb => ?_) h
      split
      · exact blockInv_finish hs _
      · exact blockInv_raise hs hb _
    case decode raw =>
      refine blockInv_serve hs (fun hb => ?_) h
      split
      · rename_i hl
        exact blockInv_finish (blockInv_setPkt hs (PacketRegister.inv_decoded _ _ hl)) _
      · exact blockInv_raise hs hb _
    case checkCrc =>
      refine blockInv_serve hs (fun hb => ?_) h
      split
      · exact blockInv_finish hs _
      · exact blockInv_raise hs hb _
    case expectedSize => exact blockInv_serve hs (fun _ => blockInv_finish hs _) h
    case extractSensors =>
      refine blockInv_serve hs (fun hb => ?_) h
      split
      · split
        · exact blockInv_raise hs hb _
        · split
          · exact blockInv_raise hs hb _
          · exact blockInv_finish hs _
      · exact blockInv_raise hs hb _
    case send w =>
      refine blockInv_serve hs (fun hb => ?_) h
      have hi : s.tx.phase = .idle ∧ s.fr.phase = .idle := by
        have := hs.busy_running
        rw [hb] at this
        constructor <;> by_contra hne <;> simp_all
      exact ⟨hp, hs.fr, by simp [Transmitter.start], .inr hi.2, fun hne => absurd rfl hne⟩
    case receiveFrames timeout maxTries =>
      refine blockInv_serve hs (fun hb => ?_) h
      have hi : s.tx.phase = .idle ∧ s.fr.phase = .idle := by
        have := hs.busy_running
        rw [hb] at this
        constructor <;> by_contra hne <;> simp_all
      exact ⟨hp, FrameReceiver.inv_start _ _ _, by simp [FrameReceiver.start], .inl hi.1,
        fun _ => hs.nothing_unsent (by rw [hi.1]; simp)⟩

/-! ### A running `SEND` -/

/-- A step of a running `SEND` does one of three things. -/
theorem sendStep_cases {s : State} (h : s.tx.phase ≠ .idle) :
    (∃ b rest, s.tx.phase = .push ∧ s.tx.todo = b :: rest ∧
      sendStep s = { s with tx := { s.tx with stream := s.tx.stream ++ [b], todo := rest } }) ∨
    (∃ p, (s.tx.phase = .push ∧ s.tx.todo = [] ∧ p = .settle ∨ s.tx.phase = .settle ∧ p = .done) ∧
      sendStep s = { s with tx := { s.tx with phase := p } }) ∨
    (s.tx.phase = .done ∧ sendStep s =
      { s with tx := { s.tx with phase := .idle }, st := { err := 0, busy := false }, resp := .ok .unit }) := by
  unfold sendStep
  split
  · contradiction
  · rename_i hp
    split
    · rename_i ht; exact .inl ⟨_, _, hp, ht, rfl⟩
    · rename_i ht; exact .inr (.inl ⟨_, .inl ⟨hp, ht, rfl⟩, rfl⟩)
  · rename_i hp; exact .inr (.inl ⟨_, .inr ⟨hp, rfl⟩, rfl⟩)
  · rename_i hp; exact .inr (.inr ⟨hp, rfl⟩)

theorem sendStep_blockInv {s : State} (hs : s.BlockInv) (h : s.tx.phase ≠ .idle) : (sendStep s).BlockInv := by
  obtain ⟨h1, h2, h3, h4, h5⟩ := hs
  have hf : s.fr.phase = .idle := h4.resolve_left h
  rcases sendStep_cases h with ⟨b, rest, hp, ht, e⟩ | ⟨p, hp, e⟩ | ⟨hp, e⟩ <;> rw [e]
  · exact ⟨h1, h2, h3, h4, fun hne => absurd hp hne⟩
  · have hn : p ≠ .idle := by rcases hp with ⟨-, -, rfl⟩ | ⟨-, rfl⟩ <;> simp
    refine ⟨h1, h2, by simp [hn, h3.mpr (.inl h)], .inr hf, fun _ => ?_⟩
    rcases hp with ⟨-, ht, -⟩ | ⟨hp, -⟩
    · exact ht
    · exact h5 (by rw [hp]; simp)
  · exact ⟨h1, h2, by simp [hf], .inl rfl, fun _ => h5 (by rw [hp]; simp)⟩

/-! ### A running `RECEIVE_FRAMES` -/

/-- A byte joins the buffer of a receiver below a full frame: the invariant holds of the outcome. -/
theorem FrameReceiver.inv_absorb {c : Config} {f : FrameReceiver} (h : f.Inv c) (buf : List Byte)
    (hl : buf.length ≤ c.frameLen) : (f.absorb c buf).Inv c := by
  obtain ⟨h1, h2, h3, h4, h5, h6⟩ := h
  unfold FrameReceiver.absorb
  split
  · rename_i hb
    refine ⟨h1, h2, h3, by simp [Config.frameLen, frameSize], ?_, by simp [h6, decodeFn]⟩
    intro p hp
    rcases List.mem_append.mp hp with hp | hp
    · exact h5 p hp
    · rw [List.mem_singleton.mp hp]; exact ⟨hb, rfl⟩
  · exact ⟨h1, h2, h3, show buf.length < c.frameLen by omega, h5, h6⟩

/-- The result the receiver delivers has its invariant. -/
theorem receiveStep_blockInv {s : State} (hs : s.BlockInv) (h : s.fr.phase ≠ .idle) : (receiveStep s).BlockInv := by
  have ht : s.tx.phase = .idle := hs.one_running.resolve_right h
  have hb : s.st.busy = true := hs.busy_running.mpr (.inr h)
  obtain ⟨h1, h2, h3, h4, h5⟩ := hs
  have keep : ∀ f : FrameReceiver, f.Inv s.cfg → f.phase ≠ .idle → (s.setFr f).BlockInv := fun f hf hn =>
    ⟨h1, hf, by simp [hn, hb], .inl ht, h5⟩
  unfold receiveStep
  split
  · contradiction
  · exact keep _ (FrameReceiver.inv_phase h2 _ (by simp)) (by simp)
  · unfold receiveSample
    split
    · exact keep _ (FrameReceiver.inv_phase h2 _ (by simp)) (by simp)
    · rename_i hn
      have hi : s.fr.iter < s.fr.maxTries := lt_of_le_of_ne h2.iter_bound hn
      refine keep _ ⟨h2.iter_bound, fun _ => hi, ?_, h2.buf_bound, h2.packets_decoded, h2.checks⟩ (by simp)
      simp [FrameReceiver.histCap]
  · rename_i hd
    split
    · rename_i b rest hrx
      unfold receiveByte
      split
      · rename_i hl
        have hp : (s.fr.absorb s.cfg (s.fr.buf ++ [b])).phase ≠ .idle := by
          unfold FrameReceiver.absorb; split <;> simpa using h
        exact blockInv_congr (keep _ (FrameReceiver.inv_absorb h2 _ hl) hp) rfl rfl rfl rfl rfl
      · rename_i hl
        have := h2.buf_bound
        simp at hl; omega
    · unfold receiveEndDrain
      have hi := h2.drain_bound hd
      refine keep _ ⟨?_, ?_, h2.hist_bound, h2.buf_bound, h2.packets_decoded, h2.checks⟩ ?_
      · show s.fr.iter + 1 ≤ s.fr.maxTries; omega
      · show (if s.fr.quiet then ReceivePhase.done else .sleep) = .drain → _
        split <;> simp
      · show (if s.fr.quiet then ReceivePhase.done else .sleep) ≠ .idle
        split <;> simp
  · exact keep _ (FrameReceiver.inv_phase h2 _ (by simp)) (by simp)
  · unfold receiveDone
    exact ⟨h1, ⟨h2.iter_bound, by simp, h2.hist_bound, by simp [Config.frameLen, frameSize], h2.packets_decoded, h2.checks⟩,
      by simp [ht], .inl ht, h5⟩

/-- A step of a running `RECEIVE_FRAMES` leaves the parameters, `PKT`, the accumulator, the line and the schedule
alone, and loses at most the head of `RX.fifo`, in `Drain`. -/
theorem receiveStep_frame (s : State) :
    (receiveStep s).cfg = s.cfg ∧ (receiveStep s).pkt = s.pkt ∧ (receiveStep s).crcAcc = s.crcAcc ∧
      (receiveStep s).tx.stream = s.tx.stream ∧ (receiveStep s).script = s.script ∧ (receiveStep s).beat = s.beat ∧
      (receiveStep s).ses.devices = s.ses.devices ∧ (receiveStep s).ses.chanOn = s.ses.chanOn ∧
      ((receiveStep s).rx = s.rx ∨ s.fr.phase = .drain ∧ ∃ b, s.rx = b :: (receiveStep s).rx) := by
  unfold receiveStep receiveSample receiveByte receiveEndDrain receiveDone
  split
  · simp
  · simp
  · split <;> simp
  · rename_i hd
    split
    · rename_i b rest hrx
      split
      · simp [hrx, hd]
      · rcases giveUp_cases (s.setRx rest) (.sizeMismatch (s.fr.buf ++ [b]).length s.cfg.frameLen) with e | e <;>
          rw [e] <;> simp [hrx, hd]
    · simp
  · simp
  · simp

/-! ### The session's tasks -/

/-- What the session does with a response leaves the block as the operation left it. -/
theorem afterRequest_cases {out : Out} {k : Value → State → State} {t : State} (h : afterRequest out k = .next t) :
    ∃ u, out = .next u ∧
      ((∃ e, u.resp = .error e ∧ t = u.endHandler (.blockError e)) ∨ (∃ v, u.resp = .ok v ∧ t = k v u) ∨ t = u) := by
  cases out with
  | next u =>
    refine ⟨u, rfl, ?_⟩
    simp only [afterRequest] at h
    split at h <;> cases h
    · rename_i e he; exact .inl ⟨e, he, rfl⟩
    · rename_i v hv; exact .inr (.inl ⟨v, hv, rfl⟩)
    · exact .inr (.inr rfl)
    · exact .inr (.inr rfl)
  | fault f => cases h
  | refused r => cases h

/-- Reading one reply is running an instruction, or the skipping or failing of the unit (R205). -/
theorem readReply_cases (s : State) (p : Purpose) (q : Packet) (ok : Bool) :
    (∃ i, ok = true ∧ decodeFrame s.cfg.dataSize q.wire = .ok i ∧
      s.readReply p q ok = exec i (s.setSes { s.ses with awaiting := some p })) ∨
    (∃ why, s.readReply p q ok = .next (s.skipOrFail p why)) := by
  unfold State.readReply
  split
  · split
    · rename_i h _ i hi; exact .inl ⟨i, h, hi, rfl⟩
    · exact .inr ⟨_, rfl⟩
  · exact .inr ⟨_, rfl⟩

/-- Reading one reply answers a next state, which is quiet and keeps the block's
invariant. -/
theorem readReply_answers (s : State) (p : Purpose) (q : Packet) (ok : Bool) :
    ∃ t, s.readReply p q ok = .next t ∧ s.Quiet t ∧ (s.BlockInv → t.BlockInv) := by
  rcases readReply_cases s p q ok with ⟨i, -, -, h⟩ | ⟨why, h⟩
  · obtain ⟨t, ht⟩ := exec_answers i (s.setSes { s.ses with awaiting := some p })
    refine ⟨t, h.trans ht, ?_, fun hs => exec_blockInv (blockInv_onlySession hs (onlySession_setSes s _)) ht⟩
    obtain ⟨h1, h2, h3, h4, h5, h6, h7⟩ := exec_quiet ht
    exact ⟨h1, h2, h3, h4, h5, h6, h7⟩
  · exact ⟨_, h, quiet_session (onlySession_skipOrFail _ _ _) (by simp) (by simp),
      fun hs => blockInv_onlySession hs (onlySession_skipOrFail _ _ _)⟩

/-- An error reply is one whose command byte is 0 or at least 9 (R73, R74, R179). -/
theorem isErrorReply_eq (p : Packet) : p.isErrorReply = decide (p.command.toNat = 0 ∨ 9 ≤ p.command.toNat) := by
  have h : ∀ n : Fin 256, (BitVec.ofFin n == (0xFF : Byte) || !cmdKnown (BitVec.ofFin n)) =
      decide (n.val = 0 ∨ 9 ≤ n.val) := by decide +kernel
  exact h p.command.toFin

/-- The devices of a PING are those of its CRC-valid replies that are no error reply (R193, R226). -/
theorem mem_chainOf {d : Device} {replies : List (Packet × Bool)} :
    d ∈ chainOf replies ↔ ∃ p, (p, true) ∈ replies ∧ p.isErrorReply = false ∧ p.device = d := by
  simp [chainOf, and_assoc]

/-- The end of PING changes the session alone; it awaits no reply it did not await. -/
theorem onlySession_finishPing (s : State) : s.OnlySession s.finishPing := by
  unfold State.finishPing
  simp only
  split
  · split <;> rfl
  · refine onlySession_trans ?_ (onlySession_goOn _)
    rfl

@[simp] theorem finishPing_chanOn (s : State) : s.finishPing.ses.chanOn = s.ses.chanOn := by
  unfold State.finishPing; simp only; split
  · split <;> rfl
  · simp [State.setChain]

@[simp] theorem finishPing_awaiting (s : State) : s.finishPing.ses.awaiting = none := by
  unfold State.finishPing; simp only; split
  · split <;> rfl
  · simp

/-- A handler's own moves change the session alone, never its device list, and leave it awaiting no reply. -/
structure State.Lays (s t : State) : Prop where
  only : s.OnlySession t
  devices : t.ses.devices = s.ses.devices
  awaiting : t.ses.awaiting = none

theorem lays_endHandler (s : State) (o : HandlerOutcome) : s.Lays (s.endHandler o) := ⟨rfl, rfl, rfl⟩

theorem lays_beginHandler (s : State) (multi : Bool) (plan : List Task) : s.Lays (s.beginHandler multi plan) := by
  refine ⟨?_, by simp [State.beginHandler], by simp [State.beginHandler]⟩
  refine onlySession_trans ?_ (onlySession_goOn _)
  rfl

/-- WRITE_INVERT of one device changes the session alone, at its turn (R199). -/
theorem lays_invertDevice (s : State) (d : Device) : s.Lays (s.invertDevice d) := by
  unfold State.invertDevice
  simp only
  split
  · exact ⟨onlySession_trans (onlySession_setPlan _ _) (onlySession_goOn _), by simp [State.setPlan], by simp⟩
  · exact ⟨onlySession_trans (onlySession_emit _ _ _) (onlySession_goOn _), by simp, by simp⟩

theorem lays_withDevices (s : State) (k : List Device → State) (hk : ∀ ds, s.Lays (k ds)) : s.Lays (s.withDevices k) := by
  unfold State.withDevices
  repeat' split
  all_goals first | exact hk _ | exact lays_endHandler _ _

theorem lays_withUid (s : State) (uid : List Byte) (k : Device → State) (hk : ∀ d, s.Lays (k d)) :
    s.Lays (s.withUid uid k) := by
  unfold State.withUid State.withDevice
  repeat' split
  all_goals first | exact hk _ | exact lays_endHandler _ _

/-- Every handler invocation changes the session alone: no I/O has happened yet (R191, R228). -/
theorem lays_invoke (s : State) (h : Handler) : s.Lays (s.invoke h) := by
  cases h <;> simp only [State.invoke]
  case ping =>
    split
    · exact lays_beginHandler _ _ _
    · exact lays_endHandler _ _
  case read => exact lays_withDevices _ _ fun _ => lays_beginHandler _ _ _
  case write =>
    refine lays_withUid _ _ _ fun d => ?_
    split
    · exact lays_beginHandler _ _ _
    · exact lays_endHandler _ _
  case writeInvert => exact lays_withDevices _ _ fun _ => lays_beginHandler _ _ _
  case load =>
    refine lays_withUid _ _ _ fun d => ?_
    split
    · exact lays_beginHandler _ _ _
    · exact lays_endHandler _ _
  case exec => exact lays_withUid _ _ _ fun _ => lays_beginHandler _ _ _
  case retr => exact lays_withUid _ _ _ fun _ => lays_beginHandler _ _ _
  case sensors => exact lays_withDevices _ _ fun _ => lays_beginHandler _ _ _
  case powerOn => exact ⟨rfl, rfl, rfl⟩
  case powerOff =>
    split
    · exact ⟨rfl, rfl, rfl⟩
    · exact lays_endHandler _ _
  case status => exact lays_endHandler _ _

end Sys2Proof.Machine
end

