-- ==== Sys2Proof/Tests/Slice0.lean ====
section
/-! SUPPORT. The model's own tests: small named theorems on fixed values. Expected values come from the spec's rules and
from spec/95_test_vectors.md; each test names its vector or rule. The witnesses at the end meet the hypotheses of the
statements in Certificates/Slice0/Obligations.lean. -/

namespace Sys2Proof.Tests

-- The tests are elaborated one after another: each `decide` waits for every earlier theorem, so
-- elaborating them side by side only holds that many waiting threads.
set_option Elab.async false

open Sys2Proof.Machine

/-! ### Helpers -/

/-- The outcome is a next state with the property `f`. -/
def holds (o : Out) (f : State → Bool) : Bool :=
  match o with
  | .next s => f s
  | _ => false

/-- The UID field of "DEV1". -/
def uidDev1 : List Byte := [0x44, 0x45, 0x56, 0x31] ++ zeros 21

/-- The fields of a frame with the UID "DEV1". -/
def body (pic : Byte) (options : Quad) (data : List Byte) (checksum : Half) : FrameBody :=
  { pic := pic, options := options, uid := uidDev1, data := data, checksum := checksum }

/-- The bytes of a frame with the UID "DEV1": `head` is bytes 0 to 5, `tail` the payload and the checksum. -/
def rawDev1 (head tail : List Byte) : List Byte := head ++ [0x44, 0x45, 0x56, 0x31] ++ zeros 21 ++ tail

/-- Vector V-K2. -/
def vecK2 : List Byte :=
  [0x01, 0x03, 0x00, 0x00, 0x01, 0x00] ++
  [0x30, 0x31, 0x32, 0x33, 0x34, 0x35, 0x36, 0x37, 0x38, 0x39, 0x41, 0x42, 0x43, 0x44, 0x45, 0x46] ++
  [0x30, 0x31, 0x32, 0x33, 0x34, 0x35, 0x36, 0x37, 0x00] ++ [0xDE, 0xAD, 0xBE, 0xEF, 0xF4, 0x76]

/-- Vector V-K4. -/
def vecK4 : List Byte := rawDev1 [0x03, 0x02, 0x07, 0, 0, 0] [0, 0, 0, 0, 0xA0, 0x95]

/-- The reset state with a payload size. -/
def sized (dataSize : Nat) : State := State.resetWith { Config.default with dataSize := dataSize }

/-- The state with a packet register. -/
def withPkt (p : PacketRegister) : State := { State.reset with pkt := p }

/-- A packet register with the fields of V-K4 all written, not crafted. -/
def fullK4 : PacketRegister :=
  { PacketRegister.cleared 4 with command := 3, pic := 2, options := 7, uid := uidDev1, written := 0b11111 }

/-- The state with V-K2 decoded. -/
def craftedK2 : State := withPkt (decodedRegister 4 vecK2)

/-- A payload written, nothing else. -/
def sensing (dataSize : Nat) (payload : List Byte) : State :=
  { sized dataSize with pkt := { PacketRegister.cleared dataSize with data := payload, written := 0b10000 } }

/-- "DEV1" with four regions of four bytes. -/
def dev1 : Device := { uid := [0x44, 0x45, 0x56, 0x31], pic := 1, sramSize := 16 }

/-- The channel is on and "DEV1" is known. -/
def known : State := { State.reset with ses := { State.reset.ses with chanOn := true, devices := [dev1] } }

/-- A session that awaits the reply of `p`, with `plan` left to do. -/
def awaits (p : Purpose) (plan : List Task) : State :=
  { known with ses := { known.ses with awaiting := some p, plan := plan, outcome := .running } }

/-- A receiver in a phase, one entry of the schedule left, and bytes available. -/
def receiving (phase : ReceivePhase) (iter maxTries : Nat) (hist : List Nat) (buf rx : List Byte) : State :=
  { State.reset with
    st := { err := 0, busy := true }
    fr := { State.reset.fr with phase := phase, iter := iter, maxTries := maxTries, hist := hist, buf := buf }
    rx := rx
    script := [.turn] }

/-- A block running a `SEND` with `todo` left to push. -/
def sending (todo : List Byte) : State :=
  { State.reset with st := { err := 0, busy := true }, tx := { stream := [0xEE], phase := .push, todo := todo } }

/-! ### Well-formedness: each check refuses a term -/

theorem test_wf_good : (Instr.read (body 2 7 [0, 0, 0, 0] 0x95A0)).wf 4 = true := by decide
theorem test_wf_uid_short : (Instr.read { body 2 7 [0, 0, 0, 0] 0 with uid := zeros 24 }).wf 4 = false := by decide
theorem test_wf_uid_long : (Instr.ack { body 2 7 [0, 0, 0, 0] 0 with uid := zeros 26 }).wf 4 = false := by decide
theorem test_wf_data_short : (Instr.write (body 2 7 [0, 0, 0] 0)).wf 4 = false := by decide
theorem test_wf_data_long : (Instr.err (body 2 7 [0, 0, 0, 0, 0] 0)).wf 4 = false := by decide

/-! ### Decoding: one word written out for every constructor (R70, R73, R82) -/

theorem test_decode_ack : decodeFrame 4 (rawDev1 [0x01, 3, 0, 0, 1, 0] [0xDE, 0xAD, 0xBE, 0xEF, 0xF4, 0x76]) =
    .ok (.ack (body 3 0x00010000 [0xDE, 0xAD, 0xBE, 0xEF] 0x76F4)) := by decide +kernel
theorem test_decode_ping : decodeFrame 0 ([0x02, 1, 0, 0, 0, 0, 0x41] ++ zeros 24 ++ [0xD8, 0xD1]) =
    .ok (.ping { pic := 1, options := 0, uid := 0x41 :: zeros 24, data := [], checksum := 0xD1D8 }) := by
  decide +kernel
theorem test_decode_read : decodeFrame 4 vecK4 = .ok (.read (body 2 7 [0, 0, 0, 0] 0x95A0)) := by decide +kernel
theorem test_decode_write :
    decodeFrame 4 ([0x04, 0xFF, 0x78, 0x56, 0x34, 0x12] ++ List.replicate 25 0xFF ++ [1, 2, 3, 4, 0xD8, 0x31]) =
    .ok (.write { pic := 0xFF, options := 0x12345678, uid := List.replicate 25 0xFF, data := [1, 2, 3, 4]
                  checksum := 0x31D8 }) := by decide +kernel
theorem test_decode_sensors :
    decodeFrame 12 (rawDev1 [0x05, 1, 0, 0, 0, 0] [0x6E, 0, 0x1E, 0, 0x46, 0, 0xB0, 4, 0xB0, 4, 0, 0, 0xA4, 0xAC]) =
    .ok (.sensors (body 1 0 [0x6E, 0, 0x1E, 0, 0x46, 0, 0xB0, 4, 0xB0, 4, 0, 0] 0xACA4)) := by decide +kernel
theorem test_decode_load : decodeFrame 4 (rawDev1 [0x06, 1, 0, 0, 0, 0] [0x31, 0x20, 0x32, 0, 0xC3, 0x7D]) =
    .ok (.load (body 1 0 [0x31, 0x20, 0x32, 0] 0x7DC3)) := by decide +kernel
theorem test_decode_exec : decodeFrame 4 (rawDev1 [0x07, 1, 1, 0, 0, 0] [0, 0, 0, 0, 0x78, 0x73]) =
    .ok (.exec (body 1 1 [0, 0, 0, 0] 0x7378)) := by decide +kernel
theorem test_decode_retr :
    decodeFrame 8 (rawDev1 [0x08, 1, 0, 0, 0, 0] [0x48, 0, 0, 0, 0xFF, 0xFF, 0xFF, 0xFF, 0x46, 0xCD]) =
    .ok (.retr (body 1 0 [0x48, 0, 0, 0, 0xFF, 0xFF, 0xFF, 0xFF] 0xCD46)) := by decide +kernel
theorem test_decode_err : decodeFrame 4 (rawDev1 [0xFF, 1, 0, 0, 0, 0] [0, 0, 0, 0, 0x4F, 0x78]) =
    .ok (.err (body 1 0 [0, 0, 0, 0] 0x784F)) := by decide +kernel
theorem test_decode_crc16 : decodeRequest [0x01, 0xAA, 0xBB] = .ok (.crc16 [0xAA, 0xBB]) := by decide
theorem test_decode_crcInit : decodeRequest [0x02] = .ok .crcInit := by decide
theorem test_decode_crcByte : decodeRequest [0x03, 0x32] = .ok (.crcByte 0x32) := by decide
theorem test_decode_crcRead : decodeRequest [0x04] = .ok .crcRead := by decide
theorem test_decode_pktClear : decodeRequest [0x08] = .ok .pktClear := by decide
theorem test_decode_setCommand : decodeRequest [0x09, 0x02] = .ok (.setCommand 2) := by decide
theorem test_decode_setPic : decodeRequest [0x0A, 0x03] = .ok (.setPic 3) := by decide
theorem test_decode_setOptions : decodeRequest [0x0B, 0x78, 0x56, 0x34, 0x12] = .ok (.setOptions 0x12345678) := by
  decide +kernel
theorem test_decode_setUid : decodeRequest [0x0C, 0x44, 0x45] = .ok (.setUid [0x44, 0x45]) := by decide
theorem test_decode_setData : decodeRequest [0x0D, 1, 2, 3, 4] = .ok (.setData [1, 2, 3, 4]) := by decide
theorem test_decode_getField : decodeRequest [0x0E, 0x05] = .ok (.getField 5) := by decide +kernel
theorem test_decode_craft : decodeRequest [0x10] = .ok .craft := by decide
theorem test_decode_toBytes : decodeRequest [0x11] = .ok .toBytes := by decide
theorem test_decode_decode : decodeRequest [0x12, 9, 8] = .ok (.decode [9, 8]) := by decide
theorem test_decode_checkCrc : decodeRequest [0x13] = .ok .checkCrc := by decide
theorem test_decode_expectedSize : decodeRequest [0x14] = .ok .expectedSize := by decide
theorem test_decode_extractSensors : decodeRequest [0x15] = .ok .extractSensors := by decide
theorem test_decode_send : decodeRequest [0x18, 0x02, 0x00] = .ok (.send [2, 0]) := by decide
/-- 300 is `0xAC 0x02` in the model's operand bytes (notes/assumptions/6.md). -/
theorem test_decode_receiveFrames : decodeRequest [0x19, 0xAC, 0x02, 0x0A] = .ok (.receiveFrames 300 10) := by
  decide +kernel

/-- R83: a reserved code. -/
theorem test_decode_reserved_op : decodeRequest [0x05] = .error (.reservedOp 5) := by decide
/-- R74: a reserved command (V-K13 as a packet command). -/
theorem test_decode_reserved_command : decodeFrame 4 (0x09 :: zeros 36) = .error (.reservedCommand 9) := by
  decide +kernel
/-- V-E2, V-E3: one byte short, one byte long. -/
theorem test_decode_short : decodeFrame 4 (zeros 36) = .error (.frameLength 36 37) := by decide +kernel
theorem test_decode_long : decodeFrame 4 (zeros 38) = .error (.frameLength 38 37) := by decide +kernel
/-- The table's rows: a frame command that is no operation code, and an operation code. -/
theorem test_table_word_frame : decodeTableWord 8 0xFF = some (.err ⟨0, 0, zeros 25, zeros 4, 0⟩) := by decide +kernel
theorem test_table_word_operation : decodeTableWord 8 0x19 = some (.receiveFrames 0 0) := by decide +kernel

/-! ### One step: the CRC16 Engine (section 2 of the vectors) -/

theorem test_crc16_check : holds (exec (.crc16 [0x31, 0x32, 0x33, 0x34, 0x35, 0x36, 0x37, 0x38, 0x39]) State.reset)
    (fun t => t.resp = .ok (.half 0xBB3D) ∧ t.crcAcc = 0) = true := by decide +kernel
/-- V-C10. -/
theorem test_crc16_trailing_zero : crc16Fn defaultLut [0x01, 0x00] = 0x9001 := by decide +kernel
theorem test_crcInit : holds (exec .crcInit { State.reset with crcAcc := 0x5180 }) (fun t => t.crcAcc = 0) = true := by
  decide +kernel
/-- Line 2 of the trace of V-C12. -/
theorem test_crcByte : holds (exec (.crcByte 0x32) { State.reset with crcAcc := 0xD4C1 })
    (fun t => t.crcAcc = 0x4594) = true := by decide +kernel
/-- Program P3, request 13. -/
theorem test_crcByte_zero : holds (exec (.crcByte 0x00) { State.reset with crcAcc := 0xBB3D })
    (fun t => t.crcAcc = 0xD17A) = true := by decide +kernel
theorem test_crcRead : holds (exec .crcRead { State.reset with crcAcc := 0x5180 })
    (fun t => t.resp = .ok (.half 0x5180) ∧ t.crcAcc = 0x5180) = true := by decide +kernel

/-! ### One step: the Packet Codec (section 3 of the vectors) -/

theorem test_pktClear : holds (exec .pktClear craftedK2) (fun t => t.pkt.phase = .empty) = true := by decide +kernel
theorem test_setCommand : holds (exec (.setCommand 3) State.reset)
    (fun t => t.pkt.command = 3 ∧ t.pkt.written = 0b00001) = true := by decide +kernel
theorem test_setPic : holds (exec (.setPic 0xFF) State.reset)
    (fun t => t.pkt.pic = 0xFF ∧ t.pkt.written = 0b00010) = true := by decide +kernel
/-- V-E6. -/
theorem test_setPic_locked : holds (exec (.setPic 9) craftedK2)
    (fun t => t.st.err = 5 ∧ t.pkt = craftedK2.pkt) = true := by decide +kernel
theorem test_setOptions : holds (exec (.setOptions 7) State.reset)
    (fun t => t.pkt.options = 7 ∧ t.pkt.written = 0b00100) = true := by decide +kernel
theorem test_setUid : holds (exec (.setUid [0x44, 0x45, 0x56, 0x31]) State.reset)
    (fun t => t.pkt.uid = uidDev1 ∧ t.pkt.written = 0b01000) = true := by decide +kernel
/-- V-E10. -/
theorem test_setUid_long : holds (exec (.setUid (List.replicate 26 0x41)) State.reset)
    (fun t => t.st.err = 7 ∧ t.pkt.written = 0) = true := by decide +kernel
theorem test_setData : holds (exec (.setData [0xDE, 0xAD, 0xBE, 0xEF]) State.reset)
    (fun t => t.pkt.data = [0xDE, 0xAD, 0xBE, 0xEF] ∧ t.pkt.written = 0b10000) = true := by decide +kernel
/-- V-E9. -/
theorem test_setData_short : holds (exec (.setData [0, 0, 0]) State.reset)
    (fun t => t.resp = .error (.badOperand 3)) = true := by decide +kernel
/-- R119's example. -/
theorem test_getField : holds (exec (.getField 2) craftedK2)
    (fun t => t.resp = .ok (.quad 0x00010000)) = true := by decide +kernel
/-- R119: every number from 6 on. -/
theorem test_getField_reserved : ∀ f ∈ [(6 : Byte), 255], holds (exec (.getField f) craftedK2)
    (fun t => t.resp = .error (.reservedOp f.toNat) ∧ t.st.err = 9 ∧ t.pkt = craftedK2.pkt) = true := by decide +kernel
/-- V-E8. -/
theorem test_getField_unset : holds (exec (.getField 5) (withPkt fullK4))
    (fun t => t.resp = .error (.fieldUnset 5)) = true := by decide +kernel
/-- V-K4. -/
theorem test_craft : holds (exec .craft (withPkt fullK4))
    (fun t => t.pkt.checksum = 0x95A0 ∧ t.pkt.wire = vecK4 ∧ t.pkt.phase = .crafted) = true := by decide +kernel
/-- V-E5. -/
theorem test_craft_partial : holds (exec .craft (withPkt { PacketRegister.cleared 4 with written := 0b00001 }))
    (fun t => t.resp = .error (.notPopulated 0b00001)) = true := by decide +kernel
theorem test_toBytes : holds (exec .toBytes craftedK2) (fun t => t.resp = .ok (.bytes vecK2)) = true := by
  decide +kernel
/-- V-E1. -/
theorem test_toBytes_empty : holds (exec .toBytes State.reset) (fun t => t.st.err = 1) = true := by decide +kernel
theorem test_decode_k2 : holds (exec (.decode vecK2) State.reset)
    (fun t => t.pkt.checksum = 0x76F4 ∧ t.pkt.data = [0xDE, 0xAD, 0xBE, 0xEF] ∧ t.pkt.pic = 3) = true := by
  decide +kernel
/-- V-E2. -/
theorem test_decode_k2_short : holds (exec (.decode (vecK2.take 36)) State.reset)
    (fun t => t.resp = .error (.sizeMismatch 36 37) ∧ t.pkt = State.reset.pkt) = true := by decide +kernel
theorem test_checkCrc : holds (exec .checkCrc craftedK2) (fun t => t.resp = .ok (.bit true)) = true := by decide +kernel
/-- V-K3: bit 7 of byte 35 flipped. -/
theorem test_checkCrc_flipped : checkCrcFn defaultLut (vecK2.set 35 0x74) = false := by decide +kernel
theorem test_expectedSize : holds (exec .expectedSize (sized 512)) (fun t => t.resp = .ok (.nat 545)) = true := by
  decide +kernel
/-- V-S8, the most negative temperature: 30, 31, 65535, 1, 7. -/
theorem test_extractSensors : holds (exec .extractSensors (sensing 10 [30, 0, 31, 0, 0xFF, 0xFF, 1, 0, 7, 0]))
    (fun t => t.resp = .ok (.sensors (-524029000000) 47143)) = true := by decide +kernel
/-- V-S15, two ties: 1024, 0, 3, 1, 96. -/
theorem test_extractSensors_ties : holds (exec .extractSensors (sensing 10 [0, 4, 0, 0, 3, 0, 1, 0, 96, 0]))
    (fun t => t.resp = .ok (.sensors 3023438 3438)) = true := by decide +kernel

/-! ### One step: the transport (section 4 of the vectors) -/

/-- R141's example, S0. -/
theorem test_send : holds (exec (.send [2, 0]) { State.reset with rx := [0xAA, 0xBB] })
    (fun t => t.rx = [] ∧ t.st.busy = true ∧ t.tx.stream = [] ∧ t.tx.todo = [2, 0]) = true := by decide +kernel
theorem test_send_push : holds (step (sending [7, 8])) (fun t => t.tx.stream = [0xEE, 7] ∧ t.tx.todo = [8]) = true := by
  decide +kernel
theorem test_receiveFrames : holds (exec (.receiveFrames 5 10) { State.reset with rx := [1] })
    (fun t => t.fr.phase = .initWait ∧ t.fr.maxTries = 10 ∧ t.fr.timeout = 5 ∧ t.rx = [1]) = true := by decide +kernel
/-- T1, iteration 2 at F2: sample 0 after 74. -/
theorem test_receive_sample : holds (step (receiving .sample 1 10 [74] [] []))
    (fun t => t.fr.hist = [0, 74] ∧ t.fr.phase = .drain) = true := by decide +kernel
/-- V-E14. -/
theorem test_busy : holds (exec (.crc16 [1]) (receiving .sleep 1 4 [0] [] []))
    (fun t => t.resp = .error .busy ∧ t.st.err = 0 ∧ t.fr.phase = .sleep) = true := by decide +kernel

/-! ### One step: the packet commands and the session (section 5 of the vectors) -/

theorem test_ack : holds (exec (.ack (body 1 0 [0, 0, 0, 0] 0)) (awaits (.write dev1 4) []))
    (fun t => t.ses.outcome = .ok ∧ t.ses.awaiting = none) = true := by decide +kernel
theorem test_ack_unasked : holds (exec (.ack (body 1 0 [0, 0, 0, 0] 0)) known) (fun t => t = known) = true := by
  decide +kernel
theorem test_ping : holds (exec (.ping (pingBody 4)) known)
    (fun t => t.ses.plan.head? = some (.op .pktClear) ∧ t.ses.plan.length = 10) = true := by decide +kernel
theorem test_ping_off : holds (exec (.ping (pingBody 4)) State.reset)
    (fun t => t.ses.outcome = .commandError .channelOff) = true := by decide +kernel
theorem test_read : holds (exec (.read (body 1 3 [0, 0, 0, 0] 0)) known)
    (fun t => t.ses.plan[1]? = some (.op (.setCommand 3)) ∧ t.ses.plan[3]? = some (.op (.setOptions 3))) = true := by
  decide +kernel
theorem test_read_reply : holds (exec (.read (body 1 0 [9, 8, 255, 0] 0)) (awaits (.read dev1 7) [.commit]))
    (fun t => t.ses.sink.pending.map (fun r => (r.uid, r.body)) =
      [(dev1.uid, .sample { pic := 1, address := ['0', 'x', '2', '0', '0', '0', '0', '0', '1', 'C']
                            values := ['9', ',', '8', ',', '2', '5', '5', ',', '0'], timestamp := 0, offset := 7
                            bytes := [9, 8, 255, 0] })]) = true := by decide +kernel
/-- V-H2: offset 4 of a device with four regions. -/
theorem test_write_top : holds (exec (.write (body 1 4 [1, 2, 3, 4] 0)) known)
    (fun t => t.ses.outcome = .running ∧ t.ses.plan[1]? = some (.op (.setCommand 4))) = true := by decide +kernel
/-- V-H2b: offset 5. -/
theorem test_write_past : holds (exec (.write (body 1 5 [1, 2, 3, 4] 0)) known)
    (fun t => t.ses.outcome = .commandError (.offsetRange 5 4) ∧ t.tx.stream = []) = true := by decide +kernel
/-- R199: a WRITE of WRITE_INVERT is not checked. -/
theorem test_write_in_sweep : holds (exec (.write (body 1 5 [1, 2, 3, 4] 0))
    { known with ses := { known.ses with multi := true } }) (fun t => t.ses.outcome = .running) = true := by
  decide +kernel
theorem test_sensors : holds (exec (.sensors (body 1 0 [0, 0, 0, 0] 0)) known)
    (fun t => t.ses.plan[1]? = some (.op (.setCommand 5))) = true := by decide +kernel
/-- R175: the record is that of the reply's UID, whatever device was asked. -/
theorem test_sensors_record :
    (insertSensors [0x41] (.sensors 7 8) known).ses.sink.pending.map (fun r => (r.uid, r.body)) =
      [([0x41], .sensor 7 8)] := by decide +kernel
/-- V-K12. -/
theorem test_load : holds (exec (.load (body 1 0 [0x31, 0x20, 0x32, 0] 0)) known)
    (fun t => t.ses.plan[5]? = some (.op (.setData [0x31, 0x20, 0x32, 0]))) = true := by decide +kernel
/-- V-H8. -/
theorem test_exec_error : holds (exec (.exec (body 1 2 [0, 0, 0, 0] 0x730F)) (awaits (.exec dev1) []))
    (fun t => t.ses.outcome = .executionError 2) = true := by decide +kernel
theorem test_exec_success : holds (exec (.exec (body 1 0 [0, 0, 0, 0] 0)) (awaits (.exec dev1) []))
    (fun t => t.ses.outcome = .ok) = true := by decide +kernel
/-- V-H5, V-H5b. -/
theorem test_retr : holds (exec (.retr (body 1 0 [0x48, 0, 0, 0, 0xFF, 0xFF, 0xFF, 0xFF] 0)) (awaits (.retr dev1) []))
    (fun t => t.ses.outcome = .integers [72, -1] ['7', '2', '-', '1']) = true := by decide +kernel
theorem test_err_single : holds (exec (.err (body 1 0 [0, 0, 0, 0] 0)) (awaits (.exec dev1) []))
    (fun t => t.ses.outcome = .commandError (.deviceError 0xFF)) = true := by decide +kernel
/-- R179 and U19: logged, and a command error. -/
theorem test_err_single_logged : holds (exec (.err (body 1 0 [0, 0, 0, 0] 0)) (awaits (.exec dev1) []))
    (fun t => t.ses.log = [⟨.error, .failed (.exec dev1) (.deviceError 0xFF)⟩]) = true := by decide +kernel
theorem test_err_sweep : holds (exec (.err (body 1 0 [0, 0, 0, 0] 0)) (awaits (.read dev1 2) [.commit]))
    (fun t => t.ses.plan = [.commit] ∧ t.ses.log.length = 1) = true := by decide +kernel
/-- V-H5c, V-H5d, V-H5e. -/
theorem test_display_quirk : displayText [1032, -10, 105, 132] = ['\n', ' ', '-', '\n', '\n', '5', '1', ' '] := by
  decide +kernel
theorem test_display_two_integers : displayText [103, 2] = ['\n', '3', '2'] := by decide +kernel
/-- V-H3. -/
theorem test_address : offsetToAddress 512 127 = some ['0', 'x', '2', '0', '0', '0', 'F', 'E', '0', '0'] := by
  decide +kernel
/-- V-H2d. -/
theorem test_read_handler : (known.invoke .read).ses.plan.length = 5 := by decide +kernel
/-- V-H7. -/
theorem test_load_handler : (known.invoke (.load [0x44, 0x45, 0x56, 0x31] [0x31, 0x32, 0x33, 0x34, 0x35])).ses.outcome =
    .commandError (.sourceTooLong 5) := by decide +kernel
/-- V-H4c. -/
theorem test_write_handler_unknown : (known.invoke (.write [0x4E, 0x4F] 0 [])).ses.outcome =
    .commandError (.unknownDevice [0x4E, 0x4F]) := by decide +kernel
/-- R228, R254: power off is refused with the channel off. -/
theorem test_powerOff_off : (State.reset.invoke .powerOff).ses.outcome = .commandError .channelOff ∧
    (known.invoke .powerOff).ses.chanOn = false := by decide +kernel
/-- SET_PIC without its operand changes nothing (notes/assumptions/8.md). -/
theorem test_malformed_request : holds (step { State.reset with script := [.request [0x0A]] })
    (fun t => t = State.reset) = true := by decide +kernel
/-- R63: a request waits between the parts of an exchange. -/
theorem test_request_waits :
    let s : State := { State.reset with
      script := [.request [0x18, 7]], ses := { State.reset.ses with plan := [.op (.crcByte 0x32)] } }
    holds (step s) (fun t => t.script = [.request [0x18, 7]] ∧ t.ses.plan = [] ∧ t.st.busy = false) = true := by
  decide +kernel
/-- A word of the table runs as the first instruction after reset. -/
theorem test_fetch_word : holds (step (State.reset.withFetchWord 8 0x12)) (fun t => t.pkt.crafted) = true := by
  decide +kernel

/-! ### Witnesses: states and operands that meet the hypotheses of the statements

`idle_block` is the one hypothesis of every statement about an instruction of an idle block: the reset state. -/

theorem idle_block : State.reset.st.busy = false := by decide

theorem witness_DecodeOfEncodeIsTheInstruction : (Instr.exec (body 1 2 [0, 0, 0, 0] 0x730F)).wf 4 = true := by decide
theorem witness_EncodeOfDecodedFrameIsTheFrame :
    decodeFrame 4 vecK4 = .ok (.read (body 2 7 [0, 0, 0, 0] 0x95A0)) := by decide +kernel
theorem witness_FrameDecoderReadsEachFieldInPlace : (zeros 36).length ≠ 33 + 4 ∧ vecK4.length = 33 + 4 := by decide

theorem witness_ReservedCodesRaiseReservedOp_code :
    let s : State := { State.reset with script := [.request [0x1F, 9]] }
    s.upcoming = [.request [0x1F, 9]] ∧ s.st.busy = false ∧ s.ses.plan = [] ∧
      decodeRequest [0x1F, 9] = .error (.reservedOp 0x1F) := by decide +kernel
theorem witness_ReservedCodesRaiseReservedOp_field :
    6 ≤ (6 : Byte).toNat ∧ 6 ≤ (255 : Byte).toNat ∧ State.reset.st.busy = false := by decide

/-- An idle block and session with one entry of the schedule to come. -/
def before (i : Input) : State := { State.reset with script := [i] }

/-- A session at work, the block idle, with one entry of the schedule to come. -/
def working (i : Input) : State := { known with script := [i], ses := { known.ses with plan := [.commit] } }

theorem witness_StepRunsTheDecodedInstruction_request :
    let s := before (.request [0x10])
    let u : State := { sending [1] with script := [.request [0x10]], ses := { known.ses with plan := [.commit] } }
    (s.upcoming = [.request [0x10]] ∧ s.ses.plan = []) ∧
      (u.upcoming = [.request [0x10]] ∧ u.ses.plan ≠ [] ∧ u.st.busy = true) ∧
      decodeRequest [0x10] = .ok .craft := by decide +kernel
theorem witness_StepRunsTheDecodedInstruction_frame :
    let s := before (.command vecK4)
    s.upcoming = [.command vecK4] ∧ s.ses.plan = [] ∧
      decodeFrame s.cfg.dataSize vecK4 = .ok (.read (body 2 7 [0, 0, 0, 0] 0x95A0)) := by decide +kernel
/-- A frame too short, a frame with the reserved command 9, and a frame while a `SEND` runs. -/
theorem witness_StepRunsTheDecodedInstruction_no_command :
    let s := before (.command (zeros 36))
    let u := before (.command (9 :: zeros 36))
    let v : State := { sending [1] with script := [.command (zeros 36)] }
    (s.upcoming = [.command (zeros 36)] ∧ s.ses.plan = [] ∧ s.st.busy = false ∧
      (zeros 36).length ≠ 33 + s.cfg.dataSize) ∧
    (u.upcoming = [.command (9 :: zeros 36)] ∧ u.ses.plan = [] ∧ u.st.busy = false ∧
      (9 :: zeros 36).length = 33 + u.cfg.dataSize ∧
      ((9 :: zeros 36).getD 0 0).toNat ∉ [1, 2, 3, 4, 5, 6, 7, 8, 255]) ∧
    (v.upcoming = [.command (zeros 36)] ∧ v.ses.plan = [] ∧ v.st.busy = true) := by decide +kernel
theorem witness_StepRunsTheDecodedInstruction_handler :
    let s := before (.handler .powerOn)
    s.upcoming = [.handler .powerOn] ∧ s.ses.plan = [] := by decide +kernel
theorem witness_StepRunsTheDecodedInstruction_waits :
    ((working (.command vecK4)).ses.plan ≠ [] ∧ (working (.command vecK4)).upcoming = [.command vecK4]) ∧
      (working (.handler .status)).upcoming = [.handler .status] ∧
      ((working (.request [0x10])).upcoming = [.request [0x10]] ∧ (working (.request [0x10])).st.busy = false) := by
  decide +kernel
theorem witness_StepRunsTheDecodedInstruction_task :
    let s := working .turn
    s.Turn [] ∧ s.tx.phase = .idle ∧ s.fr.phase = .idle ∧ s.ses.plan = [.commit] := by decide +kernel

/-- The block is idle, one good READ reply has been received, and the session is about to look at it. -/
def consulting : State :=
  { known with
    fr := { known.fr with packets := [decodeFn 4 vecK4], crcOk := [true] }
    ses := { known.ses with plan := [.consult (.read dev1 7)], outcome := .running } }

/-- The same session with other work, and other replies. -/
def consultingWith (plan : List Task) (replies : List (Packet × Bool)) : State :=
  { consulting with
    fr := { consulting.fr with packets := replies.map (·.1), crcOk := replies.map (·.2) }
    ses := { consulting.ses with plan := plan } }

/-- With nothing to come and with a turn next; no reply, one reply, two replies of a SENSORS exchange. -/
theorem witness_StepReadsTheReplies_consult :
    let s : State := { consultingWith [.consult (.read dev1 7)] [] with script := [.turn] }
    let u := consultingWith [.consult (.sensors dev1)] [(decodeFn 4 vecK2, true), (decodeFn 4 vecK4, false)]
    (s.Turn [] ∧ s.tx.phase = .idle ∧ s.fr.phase = .idle ∧ s.ses.plan = [.consult (.read dev1 7)] ∧
      Purpose.read dev1 7 ≠ .ping ∧ s.fr.packets.zip s.fr.crcOk = []) ∧
    (u.Turn [] ∧ u.tx.phase = .idle ∧ u.fr.phase = .idle ∧ u.ses.plan = [.consult (.sensors dev1)] ∧
      Purpose.sensors dev1 ≠ .ping ∧
      u.fr.packets.zip u.fr.crcOk = [(decodeFn 4 vecK2, true), (decodeFn 4 vecK4, false)]) := by decide +kernel
theorem witness_StepReadsTheReplies_not_sensors :
    (consulting.Turn [] ∧ consulting.tx.phase = .idle ∧ consulting.fr.phase = .idle ∧
      consulting.ses.plan = [.consult (.read dev1 7)] ∧ Purpose.read dev1 7 ≠ .ping ∧
      consulting.fr.packets.zip consulting.fr.crcOk = [(decodeFn 4 vecK4, true)]) ∧
      (∀ d, Purpose.read dev1 7 ≠ .sensors d) :=
  ⟨by decide +kernel, fun _ h => by cases h⟩
theorem witness_StepReadsTheReplies_reply :
    let s := consultingWith [.reply (.sensors dev1) (decodeFn 4 vecK4) false] []
    s.Turn [] ∧ s.tx.phase = .idle ∧ s.fr.phase = .idle ∧
      s.ses.plan = [.reply (.sensors dev1) (decodeFn 4 vecK4) false] := by decide +kernel
/-- A good READ reply, and a frame with the reserved command 9. -/
theorem witness_StepReadsTheReplies_read :
    decodeFrame consulting.cfg.dataSize (decodeFn 4 vecK4).wire = .ok (.read (body 2 7 [0, 0, 0, 0] 0x95A0)) ∧
      decodeFrame consulting.cfg.dataSize (decodeFn 4 (9 :: zeros 36)).wire = .error (.reservedCommand 9) ∧
      (decodeFn 4 (9 :: zeros 36)).WellDecoded consulting.cfg ∧
      (decodeFn 4 (9 :: zeros 36)).command.toNat ∉ [1, 2, 3, 4, 5, 6, 7, 8, 255] := by decide +kernel

theorem witness_CrcOperationsUseTheRecurrence : State.reset.st.busy = false := idle_block
theorem witness_CrcInitClearsTheAccumulator : State.reset.st.busy = false := idle_block
theorem witness_StreamingCrcEqualsOneShot :
    let s : State := { State.reset with script := [.request [0x02], .request [0x03, 5], .turn] }
    s.st.busy = false ∧ s.ses.plan = [] ∧
      s.script = .request [0x02] :: ([(5 : Byte)].map (fun b => Input.request [0x03, b]) ++ [.turn]) := by decide +kernel
theorem witness_CrcIsLinear : ([0x12, 0x34] : List Byte).length = ([0xAB, 0xCD] : List Byte).length := by decide
theorem witness_CrcDetectsEverySingleBit : (0 : Nat) < 8 ∧ (7 : Nat) < 8 := by decide

theorem witness_PktClearEmptiesThePacket : craftedK2.st.busy = false ∧ (5 : Byte).toNat ≤ 5 := by decide +kernel
theorem witness_SetFieldStoresAndMarks :
    State.reset.st.busy = false ∧ State.reset.pkt.crafted = false ∧ (zeros 25).length ≤ 25 ∧
      ([1, 2, 3, 4] : List Byte).length = State.reset.cfg.dataSize ∧ 4 < 5 := by decide +kernel
theorem witness_SetFieldRefusals_locked :
    craftedK2.st.busy = false ∧ craftedK2.pkt.crafted = true ∧ (∃ p, Instr.setPic 9 = .setPic p) :=
  ⟨by decide +kernel, by decide +kernel, 9, rfl⟩
theorem witness_SetFieldRefusals_length :
    State.reset.st.busy = false ∧ State.reset.pkt.crafted = false ∧ 25 < (zeros 26).length ∧
      (zeros 3).length ≠ State.reset.cfg.dataSize := by decide +kernel
theorem witness_GetFieldAnswersWrittenFields : State.reset.st.busy = false ∧ (5 : Byte).toNat ≤ 5 := by decide
theorem witness_CraftAssignsChecksumAndWire_crafted : craftedK2.st.busy = false ∧ craftedK2.pkt.crafted = true := by
  decide +kernel
theorem witness_CraftAssignsChecksumAndWire_partial :
    State.reset.st.busy = false ∧ State.reset.pkt.crafted = false ∧ State.reset.pkt.written ≠ 0b11111 := by decide
theorem witness_CraftAssignsChecksumAndWire_full :
    (withPkt fullK4).st.busy = false ∧ (withPkt fullK4).pkt.crafted = false ∧ (withPkt fullK4).pkt.written = 0b11111 := by
  decide
theorem witness_WireReadersNeedACraftedPacket_crafted : craftedK2.st.busy = false ∧ craftedK2.pkt.crafted = true := by
  decide +kernel
theorem witness_WireReadersNeedACraftedPacket_not :
    State.reset.st.busy = false ∧ State.reset.pkt.crafted = false ∧ (Instr.checkCrc = .toBytes ∨ Instr.checkCrc = .checkCrc) := by
  decide
theorem witness_DecodeTakesAFrameApart :
    State.reset.st.busy = false ∧ vecK2.length = 33 + State.reset.cfg.dataSize ∧
      (vecK2.take 36).length ≠ 33 + State.reset.cfg.dataSize := by decide +kernel
theorem witness_ExpectedSizeIsTheFrameLength : State.reset.st.busy = false := idle_block

theorem witness_ExtractSensors_unset : State.reset.st.busy = false ∧ State.reset.pkt.written.getLsbD 4 = false := by decide
theorem witness_ExtractSensors_short :
    let s := sensing 9 (zeros 9)
    s.st.busy = false ∧ s.pkt.written.getLsbD 4 = true ∧ s.cfg.dataSize < 10 := by decide +kernel
theorem witness_ExtractSensors_calibration :
    let s := sensing 10 [30, 0, 30, 0, 5, 0, 1, 0, 1, 0]
    s.st.busy = false ∧ s.pkt.written.getLsbD 4 = true ∧ 10 ≤ s.cfg.dataSize ∧ le16 s.pkt.data 0 = le16 s.pkt.data 2 := by
  decide +kernel
theorem witness_ExtractSensors_supply :
    let s := sensing 10 [110, 0, 30, 0, 70, 0, 1, 0, 0, 0]
    s.st.busy = false ∧ s.pkt.written.getLsbD 4 = true ∧ 10 ≤ s.cfg.dataSize ∧
      le16 s.pkt.data 0 ≠ le16 s.pkt.data 2 ∧ le16 s.pkt.data 8 = 0 := by decide +kernel
theorem witness_ExtractSensors_result :
    let s := sensing 10 [30, 0, 31, 0, 0xFF, 0xFF, 1, 0, 7, 0]
    s.st.busy = false ∧ s.pkt.written.getLsbD 4 = true ∧ 10 ≤ s.cfg.dataSize ∧
      le16 s.pkt.data 0 ≠ le16 s.pkt.data 2 ∧ le16 s.pkt.data 8 ≠ 0 := by decide +kernel

theorem witness_CraftedFrameRoundTrips : uidDev1.length = 25 ∧ ([] : List Byte).length = 0 := by decide
/-- V-K2 with its first byte and bit 0, and with its last byte and bit 7. -/
theorem witness_EverySingleBitFlipFailsTheCheck :
    (0 < 8 ∧ ([] ++ 0x01 :: vecK2.drop 1).length = 33 + 4 ∧ checkCrcFn defaultLut ([] ++ 0x01 :: vecK2.drop 1) = true) ∧
    (7 < 8 ∧ (vecK2.take 36 ++ 0x76 :: []).length = 33 + 4 ∧
      checkCrcFn defaultLut (vecK2.take 36 ++ 0x76 :: []) = true) := by decide +kernel
theorem witness_LeadingZerosAreInvisible : defaultLut.getD 0 0 = 0 := by decide +kernel

theorem witness_PhaseTable_empty :
    State.reset.st.busy = false ∧ State.reset.pkt.Inv State.reset.cfg ∧ State.reset.pkt.phase = .empty ∧
      (zeros 37).length = 33 + State.reset.cfg.dataSize ∧ (zeros 36).length ≠ 33 + State.reset.cfg.dataSize :=
  ⟨idle_block, PacketRegister.inv_cleared _, by decide +kernel, by decide +kernel, by decide +kernel⟩
theorem witness_PhaseTable_full :
    (withPkt fullK4).st.busy = false ∧ (withPkt fullK4).pkt.Inv (withPkt fullK4).cfg ∧
      (withPkt fullK4).pkt.phase = .populated ∧ (withPkt fullK4).pkt.written = 0b11111 ∧ (5 : Byte).toNat = 5 :=
  ⟨idle_block, ⟨by decide, by decide, by decide +kernel, by decide, by decide, by decide⟩, by decide +kernel, rfl, rfl⟩
/-- The payload alone is written, and holds ten bytes with no zero divisor; and the payload alone is not. -/
theorem witness_PhaseTable_partly :
    let s := sensing 10 [30, 0, 31, 0, 0xFF, 0xFF, 1, 0, 7, 0]
    let u := withPkt { fullK4 with written := 0b01111 }
    (s.st.busy = false ∧ s.pkt.Inv s.cfg ∧ s.pkt.phase = .populated ∧ s.pkt.written ≠ 0b11111 ∧
      s.pkt.written.getLsbD (4 : Byte).toNat = true ∧ s.pkt.written.getLsbD (3 : Byte).toNat = false ∧
      10 ≤ s.cfg.dataSize ∧ le16 s.pkt.data 0 ≠ le16 s.pkt.data 2 ∧ le16 s.pkt.data 8 ≠ 0) ∧
    (u.st.busy = false ∧ u.pkt.Inv u.cfg ∧ u.pkt.phase = .populated ∧ u.pkt.written.getLsbD 4 = false) :=
  ⟨⟨by decide +kernel, ⟨by decide +kernel, by decide +kernel, by decide +kernel, by decide +kernel, by decide +kernel,
      by decide +kernel⟩, by decide +kernel⟩,
    ⟨by decide +kernel, ⟨by decide +kernel, by decide +kernel, by decide +kernel, by decide +kernel, by decide +kernel,
      by decide +kernel⟩, by decide +kernel⟩⟩
/-- Operands that fit: a UID of 25 bytes, a payload of `DATA_SIZE` bytes. -/
theorem witness_PhaseTable_operands :
    (∃ u : List Byte, u.length ≤ 25 ∧ Instr.setUid (zeros 25) = .setUid u) ∧
      (∃ d : List Byte, d.length = State.reset.cfg.dataSize ∧ Instr.setData [1, 2, 3, 4] = .setData d) :=
  ⟨⟨zeros 25, by decide, rfl⟩, ⟨[1, 2, 3, 4], by decide, rfl⟩⟩
theorem witness_PhaseTable_crafted :
    craftedK2.st.busy = false ∧ craftedK2.pkt.Inv craftedK2.cfg ∧ craftedK2.pkt.phase = .crafted :=
  ⟨by decide +kernel, PacketRegister.inv_decoded Config.default vecK2 (by decide +kernel), by decide +kernel⟩

theorem witness_SendFlushesAndStarts : State.reset.st.busy = false := idle_block
theorem witness_SendPutsEveryByteOnTheLine :
    let s := sending [7, 8]
    s.st.busy = true ∧ s.script = [] ∧ s.beat = [] ∧ s.tx.phase = .push ∧ s.tx.todo = [7, 8] := by decide +kernel
theorem witness_ReceiveStartsFresh : State.reset.st.busy = false ∧ (sending []).st.busy = true := by decide
theorem witness_EverySleepEnds_turn :
    let s := receiving .initWait 0 4 [] [] [1]
    let u := receiving .sleep 1 4 [0] [] [1]
    (s.Turn [] ∧ s.tx.phase = .idle ∧ s.fr.phase = .initWait) ∧
      (u.Turn [] ∧ u.tx.phase = .idle ∧ u.fr.phase = .sleep) := by decide +kernel
theorem witness_SampleRecordsTheAvailableCount_budget :
    let s := receiving .sample 4 4 [0, 0] [] [1]
    s.Turn [] ∧ s.tx.phase = .idle ∧ s.fr.phase = .sample ∧ s.fr.iter = s.fr.maxTries := by decide +kernel
theorem witness_SampleRecordsTheAvailableCount_sample :
    let s := receiving .sample 3 4 [0, 0] [] [1]
    s.Turn [] ∧ s.tx.phase = .idle ∧ s.fr.phase = .sample ∧ s.fr.iter ≠ s.fr.maxTries := by decide +kernel
/-- The buffer holds 35, then 36, of the 37 bytes of a frame. -/
theorem witness_DrainMovesOneByte_joins :
    let s := receiving .drain 0 4 [1] (zeros 35) [9]
    s.Turn [] ∧ s.tx.phase = .idle ∧ s.fr.phase = .drain ∧ s.rx = [9] ∧
      s.fr.buf.length < 33 + s.cfg.dataSize ∧ s.fr.buf.length + 1 < 33 + s.cfg.dataSize := by decide +kernel
theorem witness_DrainMovesOneByte_fills :
    let s := receiving .drain 0 4 [1] (zeros 36) [9]
    s.Turn [] ∧ s.tx.phase = .idle ∧ s.fr.phase = .drain ∧ s.rx = [9] ∧
      s.fr.buf.length < 33 + s.cfg.dataSize ∧ s.fr.buf.length + 1 = 33 + s.cfg.dataSize := by decide +kernel
/-- Quiet with a history of capacity 0 (D12): a packet is there. -/
theorem witness_DrainEndsWithTheQuiescenceTest_quiet :
    let s := receiving .drain 0 1 [] [] []
    let u : State := { s with fr := { s.fr with packets := [decodeFn 4 vecK2], crcOk := [true] } }
    u.Turn [] ∧ u.tx.phase = .idle ∧ u.fr.phase = .drain ∧ u.rx = [] ∧
      (u.fr.hist.length = u.fr.maxTries / 2 ∧ (∀ n ∈ u.fr.hist, n = 0) ∧ 1 ≤ u.fr.packets.length) := by decide +kernel
/-- The history is full of zeros, and no packet is there. -/
theorem witness_DrainEndsWithTheQuiescenceTest_not :
    let s := receiving .drain 2 4 [0, 0] [] []
    s.Turn [] ∧ s.tx.phase = .idle ∧ s.fr.phase = .drain ∧ s.rx = [] ∧
      ¬ (s.fr.hist.length = s.fr.maxTries / 2 ∧ (∀ n ∈ s.fr.hist, n = 0) ∧ 1 ≤ s.fr.packets.length) := by decide +kernel
theorem witness_ReceiveDeliversItsPackets :
    let s := receiving .done 4 4 [0, 0] [1, 2] [3]
    s.Turn [] ∧ s.tx.phase = .idle ∧ s.fr.phase = .done := by decide +kernel

/-- A call just accepted, with bytes available and nothing to come. -/
def listening (maxTries : Nat) (rx : List Byte) : State :=
  { State.reset with
    st := { err := 0, busy := true }
    fr := { State.reset.fr with phase := .initWait, maxTries := maxTries }
    rx := rx }

theorem witness_SilentChannelReceivesExactlyTheWholeFrames :
    ∀ s ∈ [listening 1 vecK2, listening 2 (zeros 36)],
      s.st.busy = true ∧ s.script = [] ∧ s.beat = [] ∧ s.tx.phase = .idle ∧ 1 ≤ s.fr.maxTries ∧
      s.fr = { phase := .initWait, iter := 0, maxTries := s.fr.maxTries, timeout := s.fr.timeout, hist := [], buf := []
               packets := [], crcOk := [] } := by decide +kernel
theorem witness_SilentChannel_whole_and_short :
    33 + (listening 1 vecK2).cfg.dataSize ≤ (listening 1 vecK2).rx.length ∧
      (listening 2 (zeros 36)).rx.length < 33 + (listening 2 (zeros 36)).cfg.dataSize := by decide +kernel

theorem listening_inv : (listening 2 vecK2).Inv :=
  ⟨⟨PacketRegister.inv_cleared _, ⟨by decide +kernel, by decide +kernel, by decide +kernel, by decide +kernel,
    by decide +kernel, by decide +kernel⟩, by decide +kernel, by decide +kernel, by decide +kernel⟩, rfl⟩

/-- One byte and one turn are still to come. -/
theorem witness_ReceiveEndsOnceTheLineFallsSilent_silent :
    let s : State := { listening 2 vecK2 with script := [.push 7, .turn] }
    s.Inv ∧ s.fr.phase ≠ .idle ∧ s.beat = [] ∧ ∀ i ∈ s.script, i = .turn ∨ ∃ b, i = .push b := by
  refine ⟨⟨⟨listening_inv.block.pkt, listening_inv.block.fr, listening_inv.block.busy_running,
    listening_inv.block.one_running, listening_inv.block.nothing_unsent⟩, rfl⟩, by decide, rfl, fun i hi => ?_⟩
  rcases List.mem_cons.mp hi with rfl | hi
  · exact .inr ⟨7, rfl⟩
  · exact .inl (List.mem_singleton.mp hi)

/-- A draining receiver on a line that never falls silent. -/
def babbled : State :=
  { receiving .drain 0 4 [1] [] [9] with script := [], beat := [.push 9] }

theorem witness_ReceiveEndsOnceTheLineFallsSilent_babble :
    babbled.Inv ∧ babbled.fr.phase = .drain ∧ babbled.rx ≠ [] ∧ babbled.script = [] ∧ babbled.beat = [.push 9] :=
  ⟨⟨⟨PacketRegister.inv_cleared _, ⟨by decide +kernel, by decide +kernel, by decide +kernel, by decide +kernel,
    by decide +kernel, by decide +kernel⟩, by decide +kernel, by decide +kernel, by decide +kernel⟩, rfl⟩,
    rfl, by decide, rfl, rfl⟩

/-- The three sleeps, on a line that babbles without end. -/
theorem witness_EverySleepEnds :
    (∀ p ∈ [ReceivePhase.initWait, .sleep],
      let s : State := { babbled with fr := { babbled.fr with phase := p } }
      s.Inv ∧ (s.fr.phase = .initWait ∨ s.fr.phase = .sleep)) ∧
    let u : State := { sending [] with tx := { stream := [], phase := .settle, todo := [] }, beat := [.push 9] }
    u.Inv ∧ u.tx.phase = .settle := by
  refine ⟨fun p hp => ?_, ⟨⟨PacketRegister.inv_cleared _, ⟨by decide +kernel, by decide +kernel, by decide +kernel,
    by decide +kernel, by decide +kernel, by decide +kernel⟩, by decide +kernel, by decide +kernel, by decide +kernel⟩,
    rfl⟩, rfl⟩
  rcases List.mem_cons.mp hp with rfl | hp
  · exact ⟨⟨⟨PacketRegister.inv_cleared _, ⟨by decide +kernel, by decide +kernel, by decide +kernel, by decide +kernel,
      by decide +kernel, by decide +kernel⟩, by decide +kernel, by decide +kernel, by decide +kernel⟩, rfl⟩, .inl rfl⟩
  · rw [List.mem_singleton.mp hp]
    exact ⟨⟨⟨PacketRegister.inv_cleared _, ⟨by decide +kernel, by decide +kernel, by decide +kernel, by decide +kernel,
      by decide +kernel, by decide +kernel⟩, by decide +kernel, by decide +kernel, by decide +kernel⟩, rfl⟩, .inr rfl⟩

theorem witness_BusyRefusesEveryRequest :
    let s : State := { sending [1] with script := [.request [0x10]] }
    let u : State := { sending [1] with script := [.request [0x1F]] }
    (s.upcoming = [.request [0x10]] ∧ s.st.busy = true ∧ decodeRequest [0x10] = .ok .craft) ∧
      (u.upcoming = [.request [0x1F]] ∧ u.st.busy = true ∧ decodeRequest [0x1F] = .error (.reservedOp 0x1F)) := by
  decide +kernel
theorem witness_AlarmAbortsTheRunningOperation :
    let s : State := { sending [1] with script := [.alarm] }
    let u := working .alarm
    (s.upcoming = [.alarm] ∧ s.st.busy = true) ∧ (u.upcoming = [.alarm] ∧ u.st.busy = false ∧ u.ses.plan ≠ []) := by
  decide +kernel
theorem witness_ResetEventRestoresTheResetValues :
    let s : State := { craftedK2 with script := [.reset, .turn] }
    let u : State := { sending [7, 8] with script := [.reset] }
    s.upcoming = .reset :: [.turn] ∧ u.upcoming = [.reset] ∧ (5 : Nat) ≤ 5 := by decide +kernel
/-- No bytes at all, and SET_PIC without its operand, of an idle and of a busy block. -/
theorem witness_EveryStepAnswersANextState :
    let s := before (.request [])
    let u : State := { sending [1] with script := [.request [0x0A]] }
    (s.upcoming = [.request []] ∧ s.ses.plan = [] ∧ decodeRequest [] = .error .empty) ∧
      (u.upcoming = [.request [0x0A]] ∧ u.st.busy = true ∧ decodeRequest [0x0A] = .error (.malformedOperand 0x0A)) := by
  decide +kernel

theorem reset_blockInv : State.reset.BlockInv :=
  ⟨PacketRegister.inv_cleared _, ⟨by decide, by decide, by decide, by decide, by decide, by decide⟩, by decide,
    by decide, by decide⟩
theorem witness_StepKeepsTheInvariant : State.reset.Inv ∧ step State.reset = .next State.reset :=
  ⟨⟨reset_blockInv, rfl⟩, rfl⟩
theorem witness_StreamsKeepTheirOrder :
    step State.reset = .next State.reset ∧ ∀ rest, State.reset.upcoming ≠ .reset :: rest :=
  ⟨rfl, fun _ h => by cases h⟩
/-- A byte arrives at an idle block. -/
theorem witness_StreamsKeepTheirOrder_push :
    (before (.push 7)).upcoming = [.push 7] ∧ holds (step (before (.push 7))) (fun t => t.rx = [7]) = true ∧
      ∀ rest, (before (.push 7)).upcoming ≠ .reset :: rest :=
  ⟨by decide, by decide +kernel, fun _ h => by cases h⟩
/-- The end of a PING exchange that finds one device, and the power-on handler, with the flag off. -/
theorem witness_OnlyPingAndPowerChangeTheSession :
    let s := consultingWith [.consult .ping] [(decodeFn 4 vecK4, true)]
    let u := before (.handler .powerOn)
    holds (step s) (fun t => t.ses.devices != s.ses.devices && s.upcoming == [.turn]) = true ∧
      holds (step u) (fun t => t.ses.chanOn != u.ses.chanOn && u.upcoming != [.reset]) = true := by decide +kernel

theorem witness_RequestsBeginTheirExchange :
    (known.st.busy = false ∧ known.ses.awaiting = none ∧ known.ses.chanOn = true) ∧
      (State.reset.st.busy = false ∧ State.reset.ses.awaiting = none ∧ State.reset.ses.chanOn = false) ∧
      known.ses.devices.find? (fun e => e.uid == uidString uidDev1 && e.pic == 1) = some dev1 := by decide +kernel
/-- Four regions: 4 is let through, 5 is not. -/
theorem witness_WriteRequestChecksItsOffset :
    known.st.busy = false ∧ known.ses.awaiting = none ∧ known.ses.chanOn = true ∧ 1 ≤ known.cfg.dataSize ∧
      known.ses.devices.find? (fun e => e.uid == uidString uidDev1 && e.pic == 1) = some dev1 ∧
      (4 : Quad).toNat ≤ dev1.sramSize / known.cfg.dataSize ∧ known.ses.multi = false ∧
      dev1.sramSize / known.cfg.dataSize < (5 : Quad).toNat := by decide +kernel
/-- The channel off; the channel on with no device known, and with another device known. -/
theorem witness_CommandPreconditionsComeBeforeIO :
    let f := body 9 0 [0, 0, 0, 0] 0
    let u : State := { State.reset with ses := { State.reset.ses with chanOn := true } }
    (∀ i ∈ [Instr.read f, .retr f], i ∈ [Instr.read f, .write f, .sensors f, .load f, .exec f, .retr f]) ∧
      (Instr.retr f ≠ .read f ∧ Instr.retr f ≠ .sensors f) ∧
      (State.reset.st.busy = false ∧ State.reset.ses.awaiting = none ∧ State.reset.ses.chanOn = false) ∧
      (u.st.busy = false ∧ u.ses.awaiting = none ∧ u.ses.chanOn = true ∧ u.ses.devices = []) ∧
      (known.st.busy = false ∧ known.ses.awaiting = none ∧ known.ses.chanOn = true ∧ known.ses.devices ≠ [] ∧
        known.ses.devices.find? (fun e => e.uid == uidString f.uid && e.pic == f.pic) = none) := by decide +kernel
theorem witness_AnyReplyAnswersWriteAndLoad :
    let f := body 1 0 [0, 0, 0, 0] 0
    let s := awaits (.load dev1) [.commit]
    let u := awaits (.write dev1 4) []
    (s.st.busy = false ∧ s.ses.awaiting = some (.load dev1) ∧ s.ses.plan ≠ []) ∧
      (u.st.busy = false ∧ u.ses.awaiting = some (.write dev1 4) ∧ u.ses.plan = []) ∧
      Instr.load f ∈ [Instr.ack f, .ping f, .read f, .write f, .sensors f, .load f, .exec f, .retr f] ∧
      (known.st.busy = false ∧ known.ses.awaiting = none) := by decide +kernel
theorem witness_ExecAndRetrReadTheirReplies :
    let f := body 1 0 [0, 0, 0, 0] 0
    let g := body 1 0x80000000 [0, 0, 0, 0] 0
    let s := awaits (.exec dev1) []
    let u := awaits (.retr dev1) []
    (s.st.busy = false ∧ s.ses.plan = [] ∧ s.ses.awaiting = some (.exec dev1) ∧ f.options = 0 ∧ g.options ≠ 0) ∧
      (u.st.busy = false ∧ u.ses.plan = [] ∧ u.ses.awaiting = some (.retr dev1)) ∧
      Instr.ack f ∈ [Instr.ack f, .ping f, .read f, .write f, .sensors f, .load f, .exec f, .retr f] := by decide +kernel
theorem witness_ReadAndSensorsRecordTheirReplies :
    let f := body 1 0 [0, 0, 0, 0] 0
    let s := awaits (.read dev1 3) [.commit]
    let v := awaits (.read dev1 3) []
    let u := awaits (.sensors dev1) []
    (s.st.busy = false ∧ s.ses.awaiting = some (.read dev1 3) ∧ s.ses.plan ≠ []) ∧
      (v.st.busy = false ∧ v.ses.awaiting = some (.read dev1 3) ∧ v.ses.plan = []) ∧
      (u.st.busy = false ∧ u.ses.awaiting = some (.sensors dev1)) ∧
      Instr.retr f ∈ [Instr.ack f, .ping f, .read f, .write f, .sensors f, .load f, .exec f, .retr f] := by decide +kernel
/-- Each clause of the session's tasks: an operation that answers, one that errs, a packet crafted and not, a payload of
zero divisors and one without. -/
theorem witness_SessionTasksRequestRecordAndCommit :
    holds (exec .crcInit State.reset) (fun u => u.resp = .ok .unit) = true ∧
      holds (exec .toBytes State.reset) (fun u => u.resp = .error .notCrafted) = true ∧
      (craftedK2.st.busy = false ∧ craftedK2.pkt.crafted = true) ∧
      (State.reset.st.busy = false ∧ State.reset.pkt.crafted = false) ∧
      holds (exec .extractSensors (sensing 10 (zeros 10)))
        (fun u => u.resp = .error (.divideByZero .calibration)) = true ∧
      holds (exec .extractSensors (sensing 10 [30, 0, 31, 0, 0xFF, 0xFF, 1, 0, 7, 0]))
        (fun u => u.resp = .ok (.sensors (-524029000000) 47143)) = true := by decide +kernel
/-- In a sweep, asked for alone with nothing left, and a single-target command. -/
theorem witness_ErrSkipsTheUnitOrFailsTheHandler :
    let s : State := { awaits (.write dev1 5) [.commit] with ses :=
      { (awaits (.write dev1 5) [.commit]).ses with multi := true } }
    let u := awaits (.sensors dev1) []
    let v := awaits (.exec dev1) []
    (s.st.busy = false ∧ s.ses.awaiting = some (.write dev1 5) ∧ s.ses.multi = true ∧ s.ses.plan ≠ []) ∧
      (u.st.busy = false ∧ u.ses.awaiting = some (.sensors dev1) ∧ u.ses.plan = []) ∧
      (v.st.busy = false ∧ v.ses.awaiting = some (.exec dev1) ∧ v.ses.multi = false) ∧
      (known.st.busy = false ∧ known.ses.awaiting = none) := by decide +kernel
theorem witness_ChannelOffRefusesEveryOtherHandler :
    State.reset.ses.chanOn = false ∧ Handler.powerOff ≠ .status ∧ Handler.powerOff ≠ .powerOn ∧
      known.ses.chanOn = true := by decide
/-- One valid reply, with work left and without; one corrupted reply with a device known; none with none known. -/
theorem witness_PingReplacesTheDeviceList :
    let s := consultingWith [.consult .ping, .commit] [(decodeFn 4 vecK4, true)]
    let u := consultingWith [.consult .ping] [(decodeFn 4 vecK4, true)]
    let v := consultingWith [.consult .ping] [(decodeFn 4 vecK4, false)]
    let w : State := { State.reset with ses := { State.reset.ses with plan := [.consult .ping] } }
    (s.Turn [] ∧ s.tx.phase = .idle ∧ s.fr.phase = .idle ∧ chainOf s.replies ≠ []) ∧
      (u.Turn [] ∧ u.tx.phase = .idle ∧ u.fr.phase = .idle ∧ chainOf u.replies ≠ []) ∧
      (v.Turn [] ∧ v.tx.phase = .idle ∧ v.fr.phase = .idle ∧ chainOf v.replies = [] ∧ v.ses.devices ≠ []) ∧
      (w.Turn [] ∧ w.tx.phase = .idle ∧ w.fr.phase = .idle ∧ chainOf w.replies = [] ∧ w.ses.devices = []) := by
  decide +kernel
/-- R193: a corrupted frame of a PING is dropped with a warning. -/
theorem test_ping_drops : holds (step (consultingWith [.consult .ping] [(decodeFn 4 vecK2, false), (decodeFn 4 vecK4, true)]))
    (fun t => t.ses.log.head? = some ⟨.warning, .frameDropped (decodeFn 4 vecK2)⟩ ∧ t.ses.devices.length = 1) = true := by
  decide +kernel
/-- V-K4's frame with another command. -/
def k4With (command : Byte) : Packet := { decodeFn 4 vecK4 with command := command }
/-- R179, R180, R226: of a PING's replies a CRC-valid ERR and a reserved command are logged, ACK and RETR are not. -/
theorem test_ping_logs_error_replies :
    [k4With 0xFF, k4With 0, k4With 9, k4With 0xFE, k4With 1, k4With 8].filterMap (fun p => pingWarning (p, true)) =
      [k4With 0xFF, k4With 0, k4With 9, k4With 0xFE].map fun p => ⟨.warning, .errorReply p⟩ := by decide +kernel
/-- R226, R235: a corrupted ERR is a dropped frame; a CRC-valid ERR and a frame of zeros are skipped; "DEV1" stays. -/
theorem test_ping_error_replies :
    holds (step (consultingWith [.consult .ping]
        [(k4With 0xFF, false), (k4With 0xFF, true), (decodeFn 4 (zeros 37), true), (decodeFn 4 vecK4, true)]))
      (fun t => (t.ses.log.map (·.entry)).take 3 =
          [.frameDropped (k4With 0xFF), .errorReply (k4With 0xFF), .errorReply (decodeFn 4 (zeros 37))] ∧
        t.ses.devices = [(decodeFn 4 vecK4).device]) = true := by decide +kernel
theorem witness_ReadSweepsEveryRegionOfEveryDevice :
    known.ses.chanOn = true ∧ known.ses.devices ≠ [] ∧ 1 ≤ known.cfg.dataSize := by decide +kernel
/-- Four regions: 0 and 4 are accepted, -1 and 5 are not. -/
theorem witness_WriteHandlerAcceptsTheInclusiveBound :
    known.ses.chanOn = true ∧ 1 ≤ known.cfg.dataSize ∧
      known.ses.devices.find? (fun e => e.uid == [0x44, 0x45, 0x56, 0x31]) = some dev1 ∧
      ((0 : Int) ≤ 4 ∧ (4 : Int) ≤ (dev1.sramSize / known.cfg.dataSize : Nat)) ∧ ((-1 : Int) < 0) ∧
      ((dev1.sramSize / known.cfg.dataSize : Nat) : Int) < 5 := by decide +kernel
/-- A UID no device has; "DEV1", with sources of four and of five bytes; no device known; some device known. -/
theorem witness_HandlersLayOutTheirRequests :
    let u : State := { State.reset with ses := { State.reset.ses with chanOn := true } }
    (known.ses.chanOn = true ∧ known.ses.devices ≠ [] ∧
      known.ses.devices.find? (fun e => e.uid == [0x4E, 0x4F]) = none ∧
      known.ses.devices.find? (fun e => e.uid == [0x44, 0x45, 0x56, 0x31]) = some dev1 ∧
      (zeros 4).length ≤ known.cfg.dataSize ∧ known.cfg.dataSize < (zeros 5).length) ∧
    (u.ses.chanOn = true ∧ u.ses.devices = []) ∧ Handler.writeInvert ∈ [Handler.read, .writeInvert, .sensors] ∧
      Handler.retr [0x4E] ∈ [Handler.write [0x4E] 0 [], .load [0x4E] [], .exec [0x4E] none, .retr [0x4E]] := by
  decide +kernel
/-- A device with eleven regions, and one stored sample of each, the later ones first. -/
def dev11 : Device := { dev1 with sramSize := 44 }

/-- "DEV1" with eleven regions, its eleven samples stored, and `plan` left of a WRITE_INVERT. -/
def inverting (plan : List Task) : State :=
  { known with ses := { known.ses with
      plan := plan, multi := true, outcome := .running
      sink := { pending := [], stored := (List.range 11).reverse.map fun k =>
        { boardType := [], uid := dev11.uid
          body := .sample { pic := 1, address := [], values := [], timestamp := 0, offset := k
                            bytes := [BitVec.ofNat 8 k, 0, 0, 0] } } } } }

/-- R199: with eleven regions the one offset written is 5, with its bytes inverted. -/
theorem test_invert_device : holds ((inverting [.commit]).runTask (.invert dev11)) (fun t =>
    t.ses.plan = [.command (.write (body 1 5 [0xFA, 0xFF, 0xFF, 0xFF] 0)), .commit] ∧ t.ses.multi = true) = true := by
  decide +kernel
theorem witness_InvertRewritesTheInnerRegions_eleven :
    1 ≤ (inverting []).cfg.dataSize ∧
      (storedSamples (inverting []).ses.sink.stored dev11).length = dev11.sramSize / (inverting []).cfg.dataSize ∧
      dev11.sramSize / (inverting []).cfg.dataSize = 11 := by decide +kernel
/-- No sample is stored of a device with four regions, and of one with none. -/
theorem witness_InvertRewritesTheInnerRegions_counts :
    1 ≤ known.cfg.dataSize ∧ (storedSamples known.ses.sink.stored dev1).length ≠ dev1.sramSize / known.cfg.dataSize ∧
      (storedSamples known.ses.sink.stored { dev1 with sramSize := 3 }).length = 3 / known.cfg.dataSize := by decide +kernel
/-- One device known, and two. -/
theorem witness_InvertRewritesTheInnerRegions :
    let u : State := { known with ses := { known.ses with devices := [dev1, dev1] } }
    (known.ses.chanOn = true ∧ known.ses.devices ≠ [] ∧ known.ses.devices.length = 1) ∧
      (u.ses.chanOn = true ∧ u.ses.devices ≠ [] ∧ 2 ≤ u.ses.devices.length) := by decide +kernel
theorem witness_AddressStringShowsTheAddress :
    (-1 : Int) < 0 ∧ (0 : Int) ≤ 0 ∧ 0xFFFFFFFC + (0 : Int).toNat * 4 < 2 ^ 32 ∧
      2 ^ 32 ≤ 0xFFFFFFFC + (1 : Int).toNat * 4 := by decide
theorem witness_UidFieldKeepsTheString :
    (List.replicate 25 (0x41 : Byte)).length ≤ 25 ∧ (List.replicate 25 (0x41 : Byte)).getLast? ≠ some 0 := by decide

end Sys2Proof.Tests
end

section
/-! SUPPORT. What a step can change of the parameters, the beat and the session's two elements of R39 (R9, R22, R39,
R41, R206): each agent's move is confined to what it may change, and a step is one such move. -/

namespace Sys2Proof.Machine

/-- From `s` to `t` the parameters and the beat stay, the device list changes only if `ping`, the on/off flag only if
`power`. -/
structure State.Confined (ping power : Prop) (s t : State) : Prop where
  cfg : t.cfg = s.cfg
  beat : t.beat = s.beat
  devices : t.ses.devices ≠ s.ses.devices → ping
  chanOn : t.ses.chanOn ≠ s.ses.chanOn → power

section confined

variable {ping power : Prop} {s t : State}

theorem State.Confined.mono {ping' power' : Prop} (h : s.Confined ping power t) (hping : ping → ping')
    (hpower : power → power') : s.Confined ping' power' t :=
  ⟨h.cfg, h.beat, hping ∘ h.devices, hpower ∘ h.chanOn⟩

/-- A move that keeps all four is confined, whatever is allowed. -/
theorem confined_of_kept (hcfg : t.cfg = s.cfg) (hbeat : t.beat = s.beat) (hd : t.ses.devices = s.ses.devices)
    (hc : t.ses.chanOn = s.ses.chanOn) : s.Confined ping power t :=
  ⟨hcfg, hbeat, fun hne => absurd hd hne, fun hne => absurd hc hne⟩

theorem confined_of_quiet (h : s.Quiet t) : s.Confined ping power t :=
  confined_of_kept h.cfg h.beat h.devices h.chanOn

/-- A change of the session alone keeps the parameters and the beat. -/
theorem confined_of_onlySession (h : s.OnlySession t) (hd : t.ses.devices ≠ s.ses.devices → ping)
    (hc : t.ses.chanOn ≠ s.ses.chanOn → power) : s.Confined ping power t := by
  unfold State.OnlySession at h
  exact ⟨by rw [h], by rw [h], hd, hc⟩

/-- `Busy` changes none of the four, so a served request is confined as its operation is. -/
theorem confined_serve {run : State → State} (hr : s.Confined ping power (run s)) (h : s.serve run = .next t) :
    s.Confined ping power t := by
  rcases serve_cases h with ⟨-, rfl⟩ | ⟨-, rfl⟩
  · exact confined_of_kept rfl rfl rfl rfl
  · exact hr

end confined

/-! ### The session's tasks -/

/-- Taking an entry off the session's list first does not matter to quietness. -/
theorem quiet_of_setPlan {s t : State} {plan : List Task} (h : (s.setPlan plan).Quiet t) : s.Quiet t :=
  ⟨h.cfg, h.script, h.beat, h.stream, h.devices, h.chanOn, h.rx⟩

theorem invertDevice_chanOn (s : State) (d : Device) : (s.invertDevice d).ses.chanOn = s.ses.chanOn := by
  unfold State.invertDevice
  simp only
  split <;> simp [State.setPlan]

/-- A requested block operation is quiet when what the session does with its result is a quiet change of the session. -/
theorem afterRequest_quiet {i : Instr} {s t : State} {k : Value → State → State}
    (hk : ∀ v u, u.OnlySession (k v u) ∧ (k v u).ses.devices = u.ses.devices ∧ (k v u).ses.chanOn = u.ses.chanOn)
    (h : afterRequest (exec i s) k = .next t) : s.Quiet t := by
  obtain ⟨u, hu, hcase⟩ := afterRequest_cases h
  have hq : s.Quiet u := exec_quiet hu
  rcases hcase with ⟨e, -, rfl⟩ | ⟨v, -, rfl⟩ | rfl
  · exact quiet_then_session hq (onlySession_endHandler _ _) rfl rfl
  · obtain ⟨ho, hd, hc⟩ := hk v u
    exact quiet_then_session hq ho hd hc
  · exact hq

/-- Looking at the replies of an exchange other than PING is quiet. -/
theorem consult_quiet {s t : State} {p : Purpose} (hp : p ≠ .ping) (h : s.consult p = .next t) : s.Quiet t := by
  unfold State.consult at h
  rw [if_neg hp] at h
  split at h
  · cases h
    exact quiet_session (onlySession_skipOrFail _ _ _) (by simp) (by simp)
  · rename_i r more _
    obtain ⟨u, hu, hq, -⟩ := readReply_answers (s.setPlan (laterReplies p more ++ s.ses.plan)) p r.1 r.2
    cases hu.symm.trans h
    exact quiet_of_setPlan hq

/-- Every task but the end of a PING exchange is quiet. -/
theorem runTask_quiet {s t : State} {task : Task} (hping : task ≠ .consult .ping) (h : s.runTask task = .next t) :
    s.Quiet t := by
  cases task with
  | command i => exact exec_quiet h
  | op i => exact afterRequest_quiet (fun _ u => ⟨onlySession_refl u, rfl, rfl⟩) h
  | wire =>
    refine afterRequest_quiet (fun v u => ?_) h
    cases v <;> exact ⟨rfl, rfl, rfl⟩
  | consult p => exact consult_quiet (fun hp => hping (by rw [hp])) h
  | reply p q ok =>
    obtain ⟨u, hu, hq, -⟩ := readReply_answers s p q ok
    cases hu.symm.trans h
    exact hq
  | extract uid =>
    refine afterRequest_quiet (fun v u => ?_) h
    cases v with
    | sensors => exact ⟨onlySession_trans (onlySession_insert _ _ _) (onlySession_goOn _),
        by simp [insertSensors], by simp [insertSensors]⟩
    | _ => exact ⟨rfl, rfl, rfl⟩
  | invert d =>
    cases h
    obtain ⟨honly, hd, -⟩ := lays_invertDevice s d
    exact quiet_session honly hd (invertDevice_chanOn s d)
  | commit =>
    cases h
    exact quiet_session (onlySession_trans (onlySession_setSes s _) (onlySession_goOn _)) (by simp [State.commit])
      (by simp [State.commit])

/-! ### The agents inside, and what arrives from outside -/

/-- The agents inside change the device list only at the end of a PING exchange, the flag never. -/
theorem advance_confined {s t : State} (h : s.advance = .next t) :
    s.Confined (∃ tasks, s.ses.plan = .consult .ping :: tasks) False t := by
  unfold State.advance at h
  split at h
  · rename_i hsend
    cases h
    rcases sendStep_cases hsend with ⟨_, _, -, -, e⟩ | ⟨_, -, e⟩ | ⟨-, e⟩ <;> rw [e] <;>
      exact confined_of_kept rfl rfl rfl rfl
  · split at h
    · cases h
      obtain ⟨hcfg, -, -, -, -, hbeat, hd, hc, -⟩ := receiveStep_frame s
      exact confined_of_kept hcfg hbeat hd hc
    · split at h
      · cases h
        exact confined_of_quiet (quiet_refl s)
      · rename_i task rest hplan
        by_cases hping : task = .consult .ping
        · subst hping
          cases h
          have honly : s.OnlySession (s.setPlan rest).finishPing :=
            onlySession_trans (onlySession_setPlan s rest) (onlySession_finishPing _)
          exact confined_of_onlySession honly (fun _ => ⟨rest, hplan⟩) fun hne => hne (finishPing_chanOn _)
        · exact confined_of_quiet (quiet_of_setPlan (runTask_quiet hping h))

theorem beginHandler_chanOn (s : State) (multi : Bool) (plan : List Task) :
    (s.beginHandler multi plan).ses.chanOn = s.ses.chanOn := by
  simp [State.beginHandler]

theorem withDevices_chanOn (s : State) (k : List Device → State) (hk : ∀ ds, (k ds).ses.chanOn = s.ses.chanOn) :
    (s.withDevices k).ses.chanOn = s.ses.chanOn := by
  unfold State.withDevices
  split
  · split
    · rfl
    · exact hk _
  · rfl

theorem withUid_chanOn (s : State) (uid : List Byte) (k : Device → State)
    (hk : ∀ d, (k d).ses.chanOn = s.ses.chanOn) : (s.withUid uid k).ses.chanOn = s.ses.chanOn := by
  unfold State.withUid State.withDevice
  split
  · split
    · exact hk _
    · rfl
  · rfl

/-- Only the power handlers change the flag (R206). -/
theorem invoke_chanOn {s : State} {hd : Handler} (hon : hd ≠ .powerOn) (hoff : hd ≠ .powerOff) :
    (s.invoke hd).ses.chanOn = s.ses.chanOn := by
  cases hd with
  | powerOn => contradiction
  | powerOff => contradiction
  | status => rfl
  | ping =>
    simp only [State.invoke]
    split
    · exact beginHandler_chanOn _ _ _
    · rfl
  | read | writeInvert | sensors => exact withDevices_chanOn _ _ fun _ => beginHandler_chanOn _ _ _
  | exec | retr => exact withUid_chanOn _ _ _ fun _ => beginHandler_chanOn _ _ _
  | write | load =>
    refine withUid_chanOn _ _ _ fun d => ?_
    split
    · exact beginHandler_chanOn _ _ _
    · rfl

/-- The alarm ends what runs; the session's two elements of R39 stay. -/
theorem alarm_confined {ping power : Prop} (s : State) : s.Confined ping power s.alarm := by
  unfold State.alarm State.abort
  split <;> split <;> exact confined_of_kept rfl rfl rfl rfl

theorem serveRequest_confined {ping power : Prop} {s t : State} {bytes : List Byte}
    (h : s.serveRequest bytes = .next t) : s.Confined ping power t := by
  unfold State.serveRequest at h
  split at h
  · exact confined_of_quiet (exec_quiet h)
  · exact confined_serve (confined_of_kept rfl rfl rfl rfl) h
  · cases h
    exact confined_of_quiet (quiet_refl s)

theorem serveCommand_confined {ping power : Prop} {s t : State} {bytes : List Byte}
    (h : s.serveCommand bytes = .next t) : s.Confined ping power t := by
  unfold State.serveCommand at h
  split at h
  · exact confined_of_quiet (exec_quiet h)
  · exact confined_serve (confined_of_kept rfl rfl rfl rfl) h
  · exact confined_serve (confined_of_kept rfl rfl rfl rfl) h

/-- What an entry of the schedule other than the reset event can change: a turn what the agents inside can, a power
handler the flag. -/
theorem deliver_confined {s t : State} {i : Input} (hreset : i ≠ .reset) (h : s.deliver i = .next t) :
    s.Confined (∃ tasks, s.ses.plan = .consult .ping :: tasks)
      (i = .handler .powerOn ∨ i = .handler .powerOff) t := by
  cases i with
  | turn => exact (advance_confined h).mono id False.elim
  | push b => cases h; exact confined_of_kept rfl rfl rfl rfl
  | request bytes => exact serveRequest_confined h
  | command bytes => exact serveCommand_confined h
  | handler hd =>
    cases h
    obtain ⟨honly, hdevices, -⟩ := lays_invoke s hd
    refine confined_of_onlySession honly (fun hne => absurd hdevices hne) fun hne => ?_
    by_contra hpower
    obtain ⟨hon, hoff⟩ := not_or.mp hpower
    exact hne (invoke_chanOn (fun e => hon (by rw [e])) fun e => hoff (by rw [e]))
  | alarm => cases h; exact alarm_confined s
  | reset => contradiction

/-- The same of a step, whose next entry takes effect or waits while the agents inside move. -/
theorem step_confined {s t : State} {i : Input} {rest : List Input} (hu : s.upcoming = i :: rest)
    (hreset : i ≠ .reset) (h : step s = .next t) :
    s.Confined (∃ tasks, s.ses.plan = .consult .ping :: tasks)
      (i = .handler .powerOn ∨ i = .handler .powerOff) t := by
  rw [step_of_upcoming hu] at h
  split at h
  · exact (advance_confined h).mono id False.elim
  · obtain ⟨hcfg, hbeat, hd, hc⟩ := deliver_confined hreset h
    exact ⟨hcfg, hbeat, hd, hc⟩

/-- The reset event never waits, and takes effect as R250 says. -/
theorem step_of_reset {s : State} {rest : List Input} (hu : s.upcoming = .reset :: rest) :
    step s = .next (State.resetEvent { s with script := rest }) := by
  simp [step_of_upcoming hu, State.defers, State.deliver]

/-- Settles O44: a step is the reset event, which keeps the parameters and the beat, or a confined move. -/
theorem onlyPingAndPowerChangeTheSession : Obligations.OnlyPingAndPowerChangeTheSession := by
  intro s t h
  obtain ⟨i, rest, hu⟩ := List.exists_cons_of_ne_nil (upcoming_ne_nil s)
  by_cases hreset : i = .reset
  · subst hreset
    cases (step_of_reset hu).symm.trans h
    exact ⟨rfl, rfl, fun hno => absurd hu (hno rest)⟩
  · obtain ⟨hcfg, hbeat, hd, hc⟩ := step_confined hu hreset h
    refine ⟨hcfg, hbeat, fun _ => ⟨hd, fun hne => ⟨rest, ?_⟩⟩⟩
    rcases hc hne with rfl | rfl
    · exact .inl hu
    · exact .inr hu

end Sys2Proof.Machine
end

section
/-! SUPPORT. The machine's invariant (R28, R29, R33 to R37, R63, R155): it holds after reset, every agent's move keeps
it, and so every step does. -/

namespace Sys2Proof.Machine

/-! ### Reset -/

/-- After reset nothing runs, nothing is written and every counter is 0 (R43). -/
theorem inv_resetWith (c : Config) : (State.resetWith c).Inv where
  block :=
    { pkt := PacketRegister.inv_cleared c
      fr := by constructor <;> simp [State.resetWith, Config.frameLen, frameSize]
      busy_running := by simp [State.resetWith]
      one_running := .inl rfl
      nothing_unsent := fun _ => rfl }
  none_awaited := rfl

/-- Settles O41: the default configuration is one of all. -/
theorem resetKeepsTheInvariant : Obligations.ResetKeepsTheInvariant :=
  ⟨inv_resetWith, inv_resetWith Config.default⟩

theorem readable_cleared (dataSize f : Nat) : (PacketRegister.cleared dataSize).readable f = false := by
  unfold PacketRegister.readable
  split
  · simp [PacketRegister.isWritten, PacketRegister.cleared]
  · rfl

/-- Settles O39: the reset event never waits, and its state is the reset state of the same parameters. -/
theorem resetEventRestoresTheResetValues : Obligations.ResetEventRestoresTheResetValues := by
  intro s rest hu
  have hreadable : ∀ f, f ≤ 5 → (State.resetEvent { s with script := rest }).pkt.readable f = false :=
    fun f _ => readable_cleared _ f
  exact ⟨_, step_of_reset hu, rfl, rfl, rfl, rfl, rfl, rfl, rfl, rfl, rfl, rfl, rfl, rfl, rfl, rfl, rfl, rfl, rfl, rfl,
    rfl, rfl, hreadable⟩

/-! ### What keeps the invariant -/

/-- Beside the block's part the invariant asks only that no reply is awaited. -/
theorem inv_congr {s t : State} (hs : s.Inv) (hcfg : t.cfg = s.cfg) (hpkt : t.pkt = s.pkt) (htx : t.tx = s.tx)
    (hfr : t.fr = s.fr) (hbusy : t.st.busy = s.st.busy) (hses : t.ses.awaiting = s.ses.awaiting) : t.Inv :=
  ⟨blockInv_congr hs.block hcfg hpkt htx hfr hbusy, hses.trans hs.none_awaited⟩

theorem inv_setPlan {s : State} (hs : s.Inv) (plan : List Task) : (s.setPlan plan).Inv :=
  inv_congr hs rfl rfl rfl rfl rfl rfl

theorem inv_respond {s : State} (hs : s.Inv) (r : Response) : (s.respond r).Inv :=
  inv_congr hs rfl rfl rfl rfl rfl rfl

/-- A change of the session alone after which no reply is awaited. -/
theorem inv_onlySession {s t : State} (hs : s.BlockInv) (h : s.OnlySession t) (hn : t.ses.awaiting = none) : t.Inv :=
  ⟨blockInv_onlySession hs h, hn⟩

theorem inv_endHandler {s : State} (hs : s.BlockInv) (o : HandlerOutcome) : (s.endHandler o).Inv :=
  inv_onlySession hs (onlySession_endHandler s o) rfl

theorem inv_goOn {s : State} (hs : s.BlockInv) : s.goOn.Inv :=
  inv_onlySession hs (onlySession_goOn s) (goOn_awaiting s)

theorem inv_skipOrFail {s : State} (hs : s.BlockInv) (p : Purpose) (why : CommandError) : (s.skipOrFail p why).Inv :=
  inv_onlySession hs (onlySession_skipOrFail s p why) (skipOrFail_awaiting s p why)

theorem inv_lays {s t : State} (hs : s.BlockInv) (h : s.Lays t) : t.Inv := inv_onlySession hs h.only h.awaiting

/-- A request served keeps the invariant when its operation does, in an idle block. -/
theorem inv_serve {s t : State} {run : State → State} (hs : s.Inv) (hr : s.st.busy = false → (run s).Inv)
    (h : s.serve run = .next t) : t.Inv := by
  rcases serve_cases h with ⟨-, rfl⟩ | ⟨hb, rfl⟩
  · exact inv_respond hs _
  · exact hr hb

/-- With neither a `SEND` nor a `RECEIVE_FRAMES` running the block is not busy (R37). -/
theorem busy_eq_false {s : State} (hs : s.BlockInv) (htx : s.tx.phase = .idle) (hfr : s.fr.phase = .idle) :
    s.st.busy = false := by
  rw [← Bool.not_eq_true, hs.busy_running]
  simp [htx, hfr]

/-! ### An instruction, and the reading of a reply -/

/-- What the frame decoder answers is a packet command (R73). -/
theorem decodeFrame_lane {ds : Nat} {raw : List Byte} {i : Instr} (h : decodeFrame ds raw = .ok i) :
    i.lane = .frame := by
  have hcommand : ∀ c f, packetCommand c f = some i → i.lane = .frame := by
    intro c f hc
    unfold packetCommand at hc
    split at hc <;> cases hc <;> rfl
  unfold decodeFrame at h
  split at h
  · split at h
    · rename_i j hj
      cases h
      exact hcommand _ _ hj
    · cases h
  · cases h

/-- A packet command of an idle block ends with no reply awaited, whether it was one or not. -/
theorem exec_frame_inv {i : Instr} {s t : State} (hs : s.BlockInv) (hb : s.st.busy = false) (hi : i.lane = .frame)
    (h : exec i s = .next t) : t.Inv := by
  rcases exec_frame_cases hi h with ⟨hbusy, -⟩ | ⟨-, honly, -, -, hn⟩
  · simp [hb] at hbusy
  · exact inv_onlySession hs honly hn

theorem exec_inv {i : Instr} {s t : State} (hs : s.Inv) (h : exec i s = .next t) : t.Inv := by
  cases hi : i.lane with
  | operation =>
    obtain ⟨hses, -⟩ := exec_operation_frame hi h
    exact ⟨exec_blockInv hs.block h, by rw [hses]; exact hs.none_awaited⟩
  | frame =>
    rcases exec_frame_cases hi h with ⟨-, rfl⟩ | ⟨-, honly, -, -, hn⟩
    · exact inv_respond hs _
    · exact inv_onlySession hs.block honly hn

theorem readReply_inv {s t : State} {p : Purpose} {q : Packet} {ok : Bool} (hs : s.BlockInv)
    (hb : s.st.busy = false) (h : s.readReply p q ok = .next t) : t.Inv := by
  rcases readReply_cases s p q ok with ⟨i, -, hi, e⟩ | ⟨why, e⟩
  · have hawaiting : (s.setSes { s.ses with awaiting := some p }).BlockInv :=
      blockInv_onlySession hs (onlySession_setSes s _)
    exact exec_frame_inv hawaiting hb (decodeFrame_lane hi) (e.symm.trans h)
  · cases e.symm.trans h
    exact inv_skipOrFail hs p why

theorem consult_inv {s t : State} {p : Purpose} (hs : s.BlockInv) (hb : s.st.busy = false)
    (h : s.consult p = .next t) : t.Inv := by
  unfold State.consult at h
  split at h
  · cases h
    exact inv_onlySession hs (onlySession_finishPing s) (finishPing_awaiting s)
  · split at h
    · cases h
      exact inv_skipOrFail hs p _
    · rename_i more _
      have hplan : (s.setPlan (laterReplies p more ++ s.ses.plan)).BlockInv :=
        blockInv_onlySession hs (onlySession_setPlan s _)
      exact readReply_inv hplan hb h

/-! ### The agents inside -/

/-- A block operation the session requests keeps the invariant when what the session does with its result does. -/
theorem afterRequest_inv {i : Instr} {s t : State} {k : Value → State → State} (hs : s.Inv)
    (hk : ∀ v u, u.Inv → (k v u).Inv) (h : afterRequest (exec i s) k = .next t) : t.Inv := by
  obtain ⟨u, hu, hcase⟩ := afterRequest_cases h
  have hui : u.Inv := exec_inv hs hu
  rcases hcase with ⟨e, -, rfl⟩ | ⟨v, -, rfl⟩ | rfl
  · exact inv_endHandler hui.block _
  · exact hk v u hui
  · exact hui

theorem sendNext_inv (v : Value) {s : State} (hs : s.Inv) : (sendNext v s).Inv := by
  cases v with
  | bytes w => exact inv_setPlan hs _
  | _ => exact hs

theorem insertSensors_inv (uid : List Byte) (v : Value) {s : State} (hs : s.Inv) : (insertSensors uid v s).Inv := by
  cases v with
  | sensors t u => exact inv_goOn (blockInv_onlySession hs.block (onlySession_insert s uid _))
  | _ => exact hs

theorem runTask_inv {s t : State} {task : Task} (hs : s.Inv) (hb : s.st.busy = false)
    (h : s.runTask task = .next t) : t.Inv := by
  cases task with
  | command i => exact exec_inv hs h
  | op i => exact afterRequest_inv hs (fun _ _ hu => hu) h
  | wire => exact afterRequest_inv hs (fun v _ hu => sendNext_inv v hu) h
  | consult p => exact consult_inv hs.block hb h
  | reply p q ok => exact readReply_inv hs.block hb h
  | extract uid => exact afterRequest_inv hs (fun v _ hu => insertSensors_inv uid v hu) h
  | invert d => cases h; exact inv_lays hs.block (lays_invertDevice s d)
  | commit => cases h; exact inv_goOn (blockInv_onlySession hs.block (onlySession_setSes s _))

/-- A running `SEND` does not touch the session. -/
theorem sendStep_ses {s : State} (h : s.tx.phase ≠ .idle) : (sendStep s).ses = s.ses := by
  rcases sendStep_cases h with ⟨_, _, -, -, e⟩ | ⟨_, -, e⟩ | ⟨-, e⟩ <;> rw [e]

/-- A running `RECEIVE_FRAMES` awaits no reply in the session's stead, not even when it is given up. -/
theorem receiveStep_awaiting {s : State} (h : s.ses.awaiting = none) : (receiveStep s).ses.awaiting = none := by
  unfold receiveStep
  split
  · exact h
  · exact h
  · unfold receiveSample
    split <;> exact h
  · split
    · unfold receiveByte
      split
      · exact h
      · rename_i b rest _ _
        rcases giveUp_cases (s.setRx rest) (.sizeMismatch (s.fr.buf ++ [b]).length s.cfg.frameLen) with e | e
        · rw [e]; exact h
        · rw [e]; rfl
    · exact h
  · exact h
  · exact h

/-- The agents inside keep the invariant: one of the two running operations, or, in an idle block, the session. -/
theorem advance_inv {s t : State} (hs : s.Inv) (h : s.advance = .next t) : t.Inv := by
  unfold State.advance at h
  split at h
  · rename_i hsend
    cases h
    exact ⟨sendStep_blockInv hs.block hsend, by rw [sendStep_ses hsend]; exact hs.none_awaited⟩
  · rename_i htx
    split at h
    · rename_i hreceive
      cases h
      exact ⟨receiveStep_blockInv hs.block hreceive, receiveStep_awaiting hs.none_awaited⟩
    · rename_i hfr
      split at h
      · cases h
        exact hs
      · rename_i task rest _
        have hb : s.st.busy = false := busy_eq_false hs.block (not_not.mp htx) (not_not.mp hfr)
        exact runTask_inv (inv_setPlan hs rest) hb h

/-! ### What arrives from outside -/

theorem serveRequest_inv {s t : State} {bytes : List Byte} (hs : s.Inv) (h : s.serveRequest bytes = .next t) :
    t.Inv := by
  unfold State.serveRequest at h
  split at h
  · exact exec_inv hs h
  · exact inv_serve hs (fun hb => ⟨blockInv_raise hs.block hb _, hs.none_awaited⟩) h
  · cases h
    exact hs

theorem serveCommand_inv {s t : State} {bytes : List Byte} (hs : s.Inv) (h : s.serveCommand bytes = .next t) :
    t.Inv := by
  unfold State.serveCommand at h
  split at h
  · exact exec_inv hs h
  · exact inv_serve hs (fun _ => inv_endHandler hs.block _) h
  · exact inv_serve hs (fun _ => inv_endHandler hs.block _) h

theorem abort_inv {s : State} (hs : s.Inv) : s.abort.Inv := by
  unfold State.abort
  split
  · exact ⟨blockInv_leave_raise hs.block.pkt hs.block.fr _, hs.none_awaited⟩
  · exact hs

theorem alarm_inv {s : State} (hs : s.Inv) : s.alarm.Inv := by
  unfold State.alarm
  split
  · exact abort_inv hs
  · exact inv_endHandler (abort_inv hs).block _

theorem resetEvent_inv (s : State) : s.resetEvent.Inv := inv_congr (inv_resetWith s.cfg) rfl rfl rfl rfl rfl rfl

theorem deliver_inv {s t : State} {i : Input} (hs : s.Inv) (h : s.deliver i = .next t) : t.Inv := by
  cases i with
  | turn => exact advance_inv hs h
  | push b => cases h; exact inv_congr hs rfl rfl rfl rfl rfl rfl
  | request bytes => exact serveRequest_inv hs h
  | command bytes => exact serveCommand_inv hs h
  | handler hd => cases h; exact inv_lays hs.block (lays_invoke s hd)
  | alarm => cases h; exact alarm_inv hs
  | reset => cases h; exact resetEvent_inv s

/-- The schedule is no part of the invariant. -/
theorem inv_setScript {s : State} (hs : s.Inv) (rest : List Input) : ({ s with script := rest } : State).Inv :=
  inv_congr hs rfl rfl rfl rfl rfl rfl

/-- Settles O42: the next entry takes effect or waits while the agents inside move, and either keeps the invariant. -/
theorem stepKeepsTheInvariant : Obligations.StepKeepsTheInvariant := by
  intro s t hs h
  obtain ⟨i, rest, hu⟩ := List.exists_cons_of_ne_nil (upcoming_ne_nil s)
  rw [step_of_upcoming hu] at h
  split at h
  · exact advance_inv hs h
  · exact deliver_inv (inv_setScript hs rest) h

end Sys2Proof.Machine
end

section
/-! SUPPORT. The two streams (R30, R31, R57, R60, R64, R141, R152, R230): what each agent's move can do to them, and a
step is one such move; and a whole `SEND`. -/

namespace Sys2Proof.Machine

/-! ### What a move does to the streams -/

/-- From `s` to `t` a move of the block or its session: `TX.stream` stays or gains the first byte still to push, and
`RX.fifo` stays, loses its head to a draining receiver, or is flushed by a `SEND` just accepted. -/
structure State.StreamMove (s t : State) : Prop where
  stream : t.tx.stream = s.tx.stream ∨
    (s.tx.phase = .push ∧ ∃ b, s.tx.todo = b :: t.tx.todo ∧ t.tx.stream = s.tx.stream ++ [b])
  rx : t.rx = s.rx ∨ (s.fr.phase = .drain ∧ ∃ b, s.rx = b :: t.rx) ∨
    (s.st.busy = false ∧ t.rx = [] ∧ t.st.busy = true ∧ t.tx.phase = .push)

theorem streamMove_of_kept {s t : State} (hstream : t.tx.stream = s.tx.stream) (hrx : t.rx = s.rx) : s.StreamMove t :=
  ⟨.inl hstream, .inl hrx⟩

theorem streamMove_of_quiet {s t : State} (h : s.Quiet t) : s.StreamMove t :=
  ⟨.inl h.stream, h.rx.imp_right .inr⟩

theorem streamMove_of_onlySession {s t : State} (h : s.OnlySession t) : s.StreamMove t := by
  unfold State.OnlySession at h
  exact streamMove_of_kept (by rw [h]) (by rw [h])

/-- `Busy` touches neither stream, so a served request moves them as its operation does. -/
theorem streamMove_serve {s t : State} {run : State → State} (hr : s.StreamMove (run s)) (h : s.serve run = .next t) :
    s.StreamMove t := by
  rcases serve_cases h with ⟨-, rfl⟩ | ⟨-, rfl⟩
  · exact streamMove_of_kept rfl rfl
  · exact hr

/-- Only a byte to push leaves a running `SEND` for the line. -/
theorem sendStep_streamMove {s : State} (h : s.tx.phase ≠ .idle) : s.StreamMove (sendStep s) := by
  rcases sendStep_cases h with ⟨b, rest, hp, htodo, e⟩ | ⟨_, -, e⟩ | ⟨-, e⟩ <;> rw [e]
  · exact ⟨.inr ⟨hp, b, htodo, rfl⟩, .inl rfl⟩
  · exact streamMove_of_kept rfl rfl
  · exact streamMove_of_kept rfl rfl

theorem receiveStep_streamMove (s : State) : s.StreamMove (receiveStep s) := by
  obtain ⟨-, -, -, hstream, -, -, -, -, hrx⟩ := receiveStep_frame s
  exact ⟨.inl hstream, hrx.imp_right .inl⟩

/-- The session moves the streams through the block operations it requests, and the end of PING not at all. -/
theorem runTask_streamMove {s t : State} {task : Task} (h : s.runTask task = .next t) : s.StreamMove t := by
  by_cases hping : task = .consult .ping
  · subst hping
    cases h
    exact streamMove_of_onlySession (onlySession_finishPing s)
  · exact streamMove_of_quiet (runTask_quiet hping h)

theorem advance_streamMove {s t : State} (h : s.advance = .next t) : s.StreamMove t := by
  unfold State.advance at h
  split at h
  · rename_i hsend
    cases h
    exact sendStep_streamMove hsend
  · split at h
    · cases h
      exact receiveStep_streamMove s
    · split at h
      · cases h
        exact streamMove_of_kept rfl rfl
      · obtain ⟨hstream, hrx⟩ := runTask_streamMove h
        exact ⟨hstream, hrx⟩

theorem alarm_streamMove (s : State) : s.StreamMove s.alarm := by
  unfold State.alarm State.abort
  split <;> split <;> exact streamMove_of_kept rfl rfl

theorem serveRequest_streamMove {s t : State} {bytes : List Byte} (h : s.serveRequest bytes = .next t) :
    s.StreamMove t := by
  unfold State.serveRequest at h
  split at h
  · exact streamMove_of_quiet (exec_quiet h)
  · exact streamMove_serve (streamMove_of_kept rfl rfl) h
  · cases h
    exact streamMove_of_kept rfl rfl

theorem serveCommand_streamMove {s t : State} {bytes : List Byte} (h : s.serveCommand bytes = .next t) :
    s.StreamMove t := by
  unfold State.serveCommand at h
  split at h
  · exact streamMove_of_quiet (exec_quiet h)
  · exact streamMove_serve (streamMove_of_kept rfl rfl) h
  · exact streamMove_serve (streamMove_of_kept rfl rfl) h

/-- Every entry of the schedule but the environment's byte and the reset event. -/
theorem deliver_streamMove {s t : State} {i : Input} (hpush : ∀ b, i ≠ .push b) (hreset : i ≠ .reset)
    (h : s.deliver i = .next t) : s.StreamMove t := by
  cases i with
  | turn => exact advance_streamMove h
  | push b => exact absurd rfl (hpush b)
  | request bytes => exact serveRequest_streamMove h
  | command bytes => exact serveCommand_streamMove h
  | handler hd => cases h; exact streamMove_of_onlySession (lays_invoke s hd).only
  | alarm => cases h; exact alarm_streamMove s
  | reset => contradiction

theorem step_streamMove {s t : State} {i : Input} {rest : List Input} (hu : s.upcoming = i :: rest)
    (hpush : ∀ b, i ≠ .push b) (hreset : i ≠ .reset) (h : step s = .next t) : s.StreamMove t := by
  rw [step_of_upcoming hu] at h
  split at h
  · exact advance_streamMove h
  · obtain ⟨hstream, hrx⟩ := deliver_streamMove hpush hreset h
    exact ⟨hstream, hrx⟩

/-- A byte the environment pushes never waits (R152, R230). -/
theorem step_of_push {s : State} {b : Byte} {rest : List Input} (hu : s.upcoming = .push b :: rest) :
    step s = .next { s with script := rest, rx := s.rx ++ [b] } := by
  rw [step_of_upcoming hu]
  rfl

/-- Settles O43: the next entry is the environment's byte, or the step is a move of the block or its session. -/
theorem streamsKeepTheirOrder : Obligations.StreamsKeepTheirOrder := by
  intro s t h hno
  obtain ⟨i, rest, hu⟩ := List.exists_cons_of_ne_nil (upcoming_ne_nil s)
  have hreset : i ≠ .reset := fun e => hno rest (by rw [hu, e])
  have hbyte : ∀ b rest', s.upcoming = .push b :: rest' → t = { s with script := rest', rx := s.rx ++ [b] } := by
    intro b rest' hb
    cases (step_of_push hb).symm.trans h
    rfl
  by_cases hpush : ∃ b, i = .push b
  · obtain ⟨b, rfl⟩ := hpush
    have ht := hbyte b rest hu
    exact ⟨.inl (by rw [ht]), .inr (.inl ⟨b, rest, hu, by rw [ht]⟩), hbyte⟩
  · obtain ⟨hstream, hrx⟩ := step_streamMove hu (fun b e => hpush ⟨b, e⟩) hreset h
    exact ⟨hstream, hrx.imp_right .inr, hbyte⟩

/-! ### A whole `SEND` -/

/-- A run of one step more begins with that step. -/
theorem run_of_step {s t : State} {n : Nat} {out : Out} (h : step s = .next t)
    (hrun : Host.Core.run core n t = out) : Host.Core.run core (n + 1) s = out := by
  have hcore : core.step s = .next t := h
  have hfirst : Host.Core.run core (n + 1) s = Host.Core.run core n t := by simp only [Host.Core.run, hcore]
  exact hfirst.trans hrun

/-- On a silent line a running `SEND` takes its next step. -/
theorem step_of_send {s : State} (hscript : s.script = []) (hbeat : s.beat = []) (h : s.tx.phase ≠ .idle) :
    step s = .next (sendStep s) := by
  rw [step_of_silence hscript hbeat, State.advance, if_pos h]

theorem sendStep_byte {s : State} {b : Byte} {rest : List Byte} (hp : s.tx.phase = .push) (htodo : s.tx.todo = b :: rest) :
    sendStep s = { s with tx := { s.tx with stream := s.tx.stream ++ [b], todo := rest } } := by
  simp only [sendStep, hp, htodo, sendPush, State.setTx, txPush_tx]
  rfl

/-- A `SEND` that has pushed every byte, in the phase `p`. -/
def State.pushedAll (s : State) (p : SendPhase) : State :=
  { s with tx := { stream := s.tx.stream, phase := p, todo := [] } }

theorem sendStep_last {s : State} (hp : s.tx.phase = .push) (htodo : s.tx.todo = []) :
    sendStep s = s.pushedAll .settle := by
  simp only [sendStep, hp, htodo, State.setTx, State.pushedAll]

/-- S2, S3 and S4: with every byte pushed three steps end the operation (R141). -/
theorem run_send_end {s : State} (hscript : s.script = []) (hbeat : s.beat = []) (hp : s.tx.phase = .push)
    (htodo : s.tx.todo = []) :
    Host.Core.run core 3 s =
      .next { s.pushedAll .idle with st := { err := 0, busy := false }, resp := .ok .unit } := by
  have hlast : step s = .next (s.pushedAll .settle) := by
    rw [step_of_send hscript hbeat (by simp [hp]), sendStep_last hp htodo]
  have hsettle : step (s.pushedAll .settle) = .next (s.pushedAll .done) :=
    step_of_send hscript hbeat (by simp [State.pushedAll])
  have hdone : step (s.pushedAll .done) =
      .next { s.pushedAll .idle with st := { err := 0, busy := false }, resp := .ok .unit } :=
    step_of_send hscript hbeat (by simp [State.pushedAll])
  exact run_of_step hlast (run_of_step hsettle (run_of_step hdone rfl))

/-- Settles O28, by induction on the bytes still to push. -/
theorem sendPutsEveryByteOnTheLine : Obligations.SendPutsEveryByteOnTheLine := by
  intro s w hbusy hscript hbeat hp htodo
  induction w generalizing s with
  | nil =>
    simpa [State.pushedAll] using run_send_end hscript hbeat hp htodo
  | cons b rest ih =>
    have hbyte := step_of_send hscript hbeat (by simp [hp])
    rw [sendStep_byte hp htodo] at hbyte
    have hrest := ih { s with tx := { s.tx with stream := s.tx.stream ++ [b], todo := rest } } hbusy hscript hbeat hp rfl
    simp only [List.append_assoc, List.singleton_append] at hrest
    rw [List.length_cons, Nat.add_right_comm]
    exact run_of_step hbyte hrest

end Sys2Proof.Machine
end

section
/-! SUPPORT. Which entry of the schedule a step takes, and what it then runs (R21, R63, R82, R86, R231); and that every
sleep ends (R21, R146, R150, R268). -/

namespace Sys2Proof.Machine

/-! ### An entry that does not wait, and one that does -/

theorem step_of_deferred {s : State} {i : Input} {rest : List Input} (hu : s.upcoming = i :: rest)
    (hd : s.defers i = true) : step s = s.advance := by
  rw [step_of_upcoming hu, if_pos hd]

theorem step_of_taken {s : State} {i : Input} {rest : List Input} (hu : s.upcoming = i :: rest)
    (hd : s.defers i = false) : step s = State.deliver { s with script := rest } i := by
  rw [step_of_upcoming hu, hd]
  rfl

/-- A request is served where no handler has work left, or an operation runs (R63, R231). -/
theorem step_of_request {s : State} {bytes : List Byte} {rest : List Input} (hu : s.upcoming = .request bytes :: rest)
    (hfree : s.ses.plan = [] ∨ s.st.busy = true) : step s = State.serveRequest { s with script := rest } bytes := by
  refine step_of_taken hu ?_
  rcases hfree with h | h <;> simp [State.defers, h]

theorem step_of_command {s : State} {bytes : List Byte} {rest : List Input} (hu : s.upcoming = .command bytes :: rest)
    (hplan : s.ses.plan = []) : step s = State.serveCommand { s with script := rest } bytes :=
  step_of_taken hu (by simp [State.defers, hplan])

theorem step_of_handler {s : State} {h : Handler} {rest : List Input} (hu : s.upcoming = .handler h :: rest)
    (hplan : s.ses.plan = []) : step s = .next (State.invoke { s with script := rest } h) :=
  step_of_taken hu (by simp [State.defers, hplan])

/-! ### What the decoders' answers make of an entry -/

theorem serveRequest_of_decoded {s : State} {bytes : List Byte} {i : Instr} (h : decodeRequest bytes = .ok i) :
    s.serveRequest bytes = exec i s := by
  simp only [State.serveRequest, h]

theorem serveCommand_of_decoded {s : State} {bytes : List Byte} {i : Instr}
    (h : decodeFrame s.cfg.dataSize bytes = .ok i) : s.serveCommand bytes = exec i s := by
  simp only [State.serveCommand, h]

/-- The reserved command values are those that are none of the nine (R73, R74). -/
theorem packetCommand_reserved {c : Byte} {f : FrameBody} (h : c.toNat ∉ [1, 2, 3, 4, 5, 6, 7, 8, 255]) :
    packetCommand c f = none := by
  unfold packetCommand
  split <;> simp_all

theorem decodeFrame_wrongLength {ds : Nat} {raw : List Byte} (h : raw.length ≠ frameSize ds) :
    decodeFrame ds raw = .error (.frameLength raw.length (frameSize ds)) := by
  rw [decodeFrame, if_neg h]

theorem decodeFrame_reserved {ds : Nat} {raw : List Byte} (hl : raw.length = frameSize ds)
    (h : (byteAt raw 0).toNat ∉ [1, 2, 3, 4, 5, 6, 7, 8, 255]) :
    decodeFrame ds raw = .error (.reservedCommand (byteAt raw 0)) := by
  rw [decodeFrame, if_pos hl, packetCommand_reserved h]

theorem serveCommand_wrongLength {s : State} {bytes : List Byte} (hb : s.st.busy = false)
    (h : bytes.length ≠ frameSize s.cfg.dataSize) :
    s.serveCommand bytes =
      .next (s.endHandler (.blockError (.sizeMismatch bytes.length (frameSize s.cfg.dataSize)))) := by
  simp only [State.serveCommand, decodeFrame_wrongLength h]
  exact serve_idle hb _

theorem serveCommand_reserved {s : State} {bytes : List Byte} (hb : s.st.busy = false)
    (hl : bytes.length = frameSize s.cfg.dataSize) (h : (byteAt bytes 0).toNat ∉ [1, 2, 3, 4, 5, 6, 7, 8, 255]) :
    s.serveCommand bytes = .next (s.endHandler (.commandError (.reservedCommand (byteAt bytes 0)))) := by
  simp only [State.serveCommand, decodeFrame_reserved hl h]
  exact serve_idle hb _

/-- A busy block turns every frame away, whatever its bytes (R231). -/
theorem serveCommand_busy {s : State} (hb : s.st.busy = true) (bytes : List Byte) :
    s.serveCommand bytes = .next (s.respond (.error .busy)) := by
  unfold State.serveCommand
  split
  · exact exec_busy _ hb
  · exact serve_busy hb _
  · exact serve_busy hb _

/-- A busy block turns every request away, and does not see bytes that are none (R231). -/
theorem serveRequest_busy {s : State} (hb : s.st.busy = true) (bytes : List Byte) :
    s.serveRequest bytes = .next (s.respond (.error .busy)) ∨ s.serveRequest bytes = .next s := by
  unfold State.serveRequest
  split
  · exact .inl (exec_busy _ hb)
  · exact .inl (serve_busy hb _)
  · exact .inr rfl

/-- With the block idle the agents inside do the first entry of the session's work. -/
theorem advance_task {s : State} {task : Task} {tasks : List Task} (htx : s.tx.phase = .idle)
    (hfr : s.fr.phase = .idle) (hplan : s.ses.plan = task :: tasks) :
    s.advance = (s.setPlan tasks).runTask task := by
  simp [State.advance, htx, hfr, hplan]

/-- Settles O6, a clause for each kind of entry. -/
theorem stepRunsTheDecodedInstruction : Obligations.StepRunsTheDecodedInstruction := by
  intro s rest bytes i h
  refine ⟨fun hu hfree hi => ?_, fun hu hplan hi => ?_, fun hu hplan => ⟨fun hb hl => ?_, fun hb hl hc => ?_, fun hb => ?_⟩,
    step_of_handler, fun hplan hu => ?_, fun task tasks hturn htx hfr hplan => ?_⟩
  · exact (step_of_request hu hfree).trans (serveRequest_of_decoded hi)
  · exact (step_of_command hu hplan).trans (serveCommand_of_decoded hi)
  · exact (step_of_command hu hplan).trans (serveCommand_wrongLength hb hl)
  · exact (step_of_command hu hplan).trans (serveCommand_reserved hb hl hc)
  · exact (step_of_command hu hplan).trans (serveCommand_busy (s := { s with script := rest }) hb bytes)
  · rcases hu with hu | hu | ⟨hu, hb⟩
    · exact step_of_deferred hu (by simpa [State.defers] using hplan)
    · exact step_of_deferred hu (by simpa [State.defers] using hplan)
    · exact step_of_deferred hu (by simpa [State.defers, hb] using hplan)
  · exact (step_turn hturn).trans (advance_task htx hfr hplan)

/-! ### Every sleep ends -/

/-- The phases in which a running operation sleeps: F1, F5 and S3 (R141, R146, R150). -/
def AbortPhase.sleeps : AbortPhase → Bool
  | .receive .initWait | .receive .sleep | .send .settle => true
  | _ => false

theorem abortPhase_of_send {s : State} (h : s.tx.phase ≠ .idle) : s.abortPhase = .send s.tx.phase := by
  simp [State.abortPhase, h]

theorem abortPhase_of_receive {s : State} (h : s.tx.phase = .idle) : s.abortPhase = .receive s.fr.phase := by
  simp [State.abortPhase, h]

/-- What sleeps is one of the three sleeps. -/
theorem sleeps_cases {s : State} (h : s.abortPhase.sleeps = true) :
    s.tx.phase = .settle ∨ s.tx.phase = .idle ∧ (s.fr.phase = .initWait ∨ s.fr.phase = .sleep) := by
  by_cases htx : s.tx.phase = .idle
  · rw [abortPhase_of_receive htx] at h
    revert h
    cases s.fr.phase <;> simp [AbortPhase.sleeps, htx]
  · rw [abortPhase_of_send htx] at h
    revert h
    cases s.tx.phase <;> simp [AbortPhase.sleeps]

/-- Where nothing runs nothing sleeps. -/
theorem abortPhase_ne_of_idle {s t : State} (hs : s.abortPhase.sleeps = true) (htx : t.tx.phase = .idle)
    (hfr : t.fr.phase = .idle) : t.abortPhase ≠ s.abortPhase := by
  intro e
  rw [← e, abortPhase_of_receive htx, hfr] at hs
  cases hs

theorem busy_of_sleeps {s : State} (hs : s.BlockInv) (h : s.abortPhase.sleeps = true) : s.st.busy = true := by
  rw [hs.busy_running]
  rcases sleeps_cases h with htx | ⟨-, hfr | hfr⟩
  · simp [htx]
  · simp [hfr]
  · simp [hfr]

/-- F1 and F5 (R146, R150). -/
theorem advance_of_receive_sleep {s : State} (htx : s.tx.phase = .idle)
    (hfr : s.fr.phase = .initWait ∨ s.fr.phase = .sleep) :
    s.advance = .next { s with fr := { s.fr with phase := .sample } } := by
  rcases hfr with hfr | hfr <;> simp [State.advance, htx, receiveStep, hfr, State.setFr]

/-- S3 (R141). -/
theorem advance_of_settle {s : State} (htx : s.tx.phase = .settle) :
    s.advance = .next { s with tx := { s.tx with phase := .done } } := by
  simp [State.advance, sendStep, htx, State.setTx]

/-- When the agents inside move the sleep is over. -/
theorem advance_wakes {s : State} (h : s.abortPhase.sleeps = true) :
    ∃ t, s.advance = .next t ∧ t.abortPhase ≠ s.abortPhase := by
  rcases sleeps_cases h with htx | ⟨htx, hfr⟩
  · refine ⟨_, advance_of_settle htx, ?_⟩
    simp [State.abortPhase, htx]
  · refine ⟨_, advance_of_receive_sleep htx hfr, ?_⟩
    rcases hfr with hfr | hfr <;> simp [State.abortPhase, htx, hfr]

/-- An abort leaves nothing running. -/
theorem alarm_idle {s : State} (hb : s.st.busy = true) : s.alarm.tx.phase = .idle ∧ s.alarm.fr.phase = .idle := by
  unfold State.alarm State.abort
  simp only [hb, if_true]
  split <;> exact ⟨rfl, rfl⟩

/-- An entry other than a turn ends the sleep, or leaves it as it is and the schedule and the beat too. -/
theorem deliver_asleep {s : State} {i : Input} (hs : s.BlockInv) (h : s.abortPhase.sleeps = true) :
    ∃ t, s.deliver i = .next t ∧ (t.abortPhase ≠ s.abortPhase ∨
      i ≠ .turn ∧ t.abortPhase = s.abortPhase ∧ t.script = s.script ∧ t.beat = s.beat) := by
  have hb := busy_of_sleeps hs h
  cases i with
  | turn =>
    obtain ⟨t, ht, hne⟩ := advance_wakes h
    exact ⟨t, ht, .inl hne⟩
  | push b => exact ⟨_, rfl, .inr ⟨by simp, rfl, rfl, rfl⟩⟩
  | request bytes =>
    rcases serveRequest_busy hb bytes with e | e
    · exact ⟨_, e, .inr ⟨by simp, rfl, rfl, rfl⟩⟩
    · exact ⟨_, e, .inr ⟨by simp, rfl, rfl, rfl⟩⟩
  | command bytes => exact ⟨_, serveCommand_busy hb bytes, .inr ⟨by simp, rfl, rfl, rfl⟩⟩
  | handler hd =>
    have honly : s.OnlySession (s.invoke hd) := (lays_invoke s hd).only
    unfold State.OnlySession at honly
    exact ⟨_, rfl, .inr ⟨by simp, by rw [honly]; rfl, by rw [honly], by rw [honly]⟩⟩
  | alarm => exact ⟨_, rfl, .inl (abortPhase_ne_of_idle h (alarm_idle hb).1 (alarm_idle hb).2)⟩
  | reset => exact ⟨_, rfl, .inl (abortPhase_ne_of_idle h rfl rfl)⟩

/-- A step ends the sleep, or takes an entry other than a turn. -/
theorem step_asleep {s : State} {i : Input} {rest : List Input} (hs : s.Inv) (h : s.abortPhase.sleeps = true)
    (hu : s.upcoming = i :: rest) :
    ∃ t, step s = .next t ∧ (t.abortPhase ≠ s.abortPhase ∨
      i ≠ .turn ∧ t.abortPhase = s.abortPhase ∧ t.script = rest ∧ t.beat = s.beat) := by
  rw [step_of_upcoming hu]
  split
  · obtain ⟨t, ht, hne⟩ := advance_wakes h
    exact ⟨t, ht, .inl hne⟩
  · exact deliver_asleep (s := { s with script := rest }) (inv_setScript hs rest).block h

/-- The outside brings the entries `l` next, a turn among them: `l` is the schedule, or the schedule and one round of
what repeats. -/
def State.Brings (s : State) (l : List Input) : Prop :=
  .turn ∈ l ∧ (s.script = l ∨ l = s.script ++ (s.beat ++ [.turn]))

theorem brings_round (s : State) : s.Brings (s.script ++ (s.beat ++ [.turn])) := ⟨by simp, .inr rfl⟩

/-- The first entry brought is the next one, and unless it is the turn the others are brought after it. -/
theorem brings_cons {s : State} {i : Input} {l : List Input} (h : s.Brings (i :: l)) :
    ∃ rest, s.upcoming = i :: rest ∧
      ∀ t : State, i ≠ .turn → t.script = rest → t.beat = s.beat → t.Brings l := by
  obtain ⟨hmem, hl⟩ := h
  have hrest : i ≠ .turn → .turn ∈ l := fun hne => (List.mem_cons.mp hmem).resolve_left (Ne.symm hne)
  rcases hl with hl | hl
  · exact ⟨l, upcoming_of_script hl, fun t hne hscript _ => ⟨hrest hne, .inl hscript⟩⟩
  · cases hscript : s.script with
    | nil =>
      rw [hscript, List.nil_append] at hl
      exact ⟨l, (upcoming_of_nil hscript).trans hl.symm, fun t hne ht _ => ⟨hrest hne, .inl ht⟩⟩
    | cons j rest =>
      rw [hscript, List.cons_append] at hl
      obtain ⟨rfl, htail⟩ := List.cons.inj hl
      exact ⟨rest, upcoming_of_script hscript, fun t hne ht hbeat => ⟨hrest hne, .inr (by rw [ht, hbeat, htail])⟩⟩

/-- A sleep is over when the entries brought are, by induction on them. -/
theorem sleep_ends {s : State} {l : List Input} (hs : s.Inv) (h : s.abortPhase.sleeps = true) (hl : s.Brings l) :
    ∃ (n : Nat) (t : State), n ≤ l.length ∧ Host.Core.run core n s = .next t ∧ t.Inv ∧
      t.abortPhase ≠ s.abortPhase := by
  induction l generalizing s with
  | nil => cases hl.1
  | cons i l ih =>
    obtain ⟨rest, hu, hafter⟩ := brings_cons hl
    obtain ⟨t, ht, hwoken | ⟨hne, hasleep, hscript, hbeat⟩⟩ := step_asleep hs h hu
    · exact ⟨1, t, by simp, run_of_step ht rfl, stepKeepsTheInvariant s t hs ht, hwoken⟩
    · obtain ⟨n, u, hn, hrun, hu, hwoken⟩ :=
        ih (stepKeepsTheInvariant s t hs ht) (by rw [hasleep]; exact h) (hafter t hne hscript hbeat)
      exact ⟨n + 1, u, by simpa using hn, run_of_step ht hrun, hu, by rw [← hasleep]; exact hwoken⟩

/-- The same with the bound of R268: the schedule, one round of what repeats, and the turn that closes it. -/
theorem sleep_ends_within_a_round {s : State} (hs : s.Inv) (h : s.abortPhase.sleeps = true) :
    ∃ (n : Nat) (t : State), n ≤ s.script.length + s.beat.length + 1 ∧ Host.Core.run core n s = .next t ∧ t.Inv ∧
      t.abortPhase ≠ s.abortPhase := by
  obtain ⟨n, t, hn, hrest⟩ := sleep_ends hs h (brings_round s)
  exact ⟨n, t, by simpa [Nat.add_assoc] using hn, hrest⟩

/-- Settles O30: the running operation is in another phase, and so is the side of it that slept. -/
theorem everySleepEnds : Obligations.EverySleepEnds := by
  refine ⟨fun s rest hturn htx hfr => ?_, fun s hs => ⟨fun hfr => ?_, fun htx => ?_⟩⟩
  · exact (step_turn hturn).trans (advance_of_receive_sleep (s := { s with script := rest }) htx hfr)
  · have hne : s.fr.phase ≠ .idle := by rcases hfr with hfr | hfr <;> simp [hfr]
    have hphase : s.abortPhase = .receive s.fr.phase := abortPhase_of_receive (hs.block.one_running.resolve_right hne)
    have hsleeps : s.abortPhase.sleeps = true := by rcases hfr with hfr | hfr <;> rw [hphase, hfr] <;> rfl
    obtain ⟨n, t, hn, hrun, ht, hwoken⟩ := sleep_ends_within_a_round hs hsleeps
    refine ⟨n, t, hn, hrun, fun e => hwoken ?_⟩
    rw [hphase, ← e, abortPhase_of_receive (ht.block.one_running.resolve_right (by rw [e]; exact hne))]
  · have hphase : s.abortPhase = .send .settle := by rw [abortPhase_of_send (by simp [htx]), htx]
    obtain ⟨n, t, hn, hrun, -, hwoken⟩ := sleep_ends_within_a_round hs (by rw [hphase]; rfl)
    refine ⟨n, t, hn, hrun, fun e => hwoken ?_⟩
    rw [hphase, abortPhase_of_send (by simp [e]), e]

end Sys2Proof.Machine
end

section
/-! SUPPORT. The packet phases (R28) and the rows of the table of R130, one after another. -/

namespace Sys2Proof.Machine

/-! ### The phases and the flags -/

theorem phase_eq_crafted {p : PacketRegister} : p.phase = .crafted ↔ p.crafted = true := by
  unfold PacketRegister.phase
  split
  · simp [*]
  · split <;> simp [*]

theorem phase_eq_empty {p : PacketRegister} : p.phase = .empty ↔ p.crafted = false ∧ p.written = 0 := by
  unfold PacketRegister.phase
  split
  · simp [*]
  · split <;> simp_all

theorem phase_eq_populated {p : PacketRegister} : p.phase = .populated ↔ p.crafted = false ∧ p.written ≠ 0 := by
  unfold PacketRegister.phase
  split
  · simp [*]
  · split <;> simp_all

/-- A bit of `PKT.written` is then set, so the packet is not empty. -/
theorem phase_mark {p : PacketRegister} {k : Nat} (hk : k < 5) (hc : p.crafted = false) :
    (p.mark k).phase = .populated := by
  refine phase_eq_populated.mpr ⟨hc, fun h => ?_⟩
  have hbit : (p.mark k).written.getLsbD k = true := by simp [PacketRegister.mark, hk]
  rw [h] at hbit
  simp at hbit

/-- Every field of a crafted packet holds a value (R28, R29). -/
theorem readable_of_crafted {c : Config} {p : PacketRegister} (hp : p.Inv c) (hc : p.crafted = true) (f : Nat) :
    p.readable f = true := by
  unfold PacketRegister.readable PacketRegister.isWritten
  rw [hp.crafted_full hc, ← hp.crafted_assigned, hc]
  split
  · interval_cases f <;> rfl
  · rfl

/-- No field of an empty packet holds a value (R28). -/
theorem readable_of_empty {c : Config} {p : PacketRegister} (hp : p.Inv c) (h : p.phase = .empty) (f : Nat) :
    p.readable f = false := by
  obtain ⟨hc, hw⟩ := phase_eq_empty.mp h
  unfold PacketRegister.readable PacketRegister.isWritten
  rw [hw, ← hp.crafted_assigned, hc]
  split <;> simp

theorem readable_of_le {p : PacketRegister} {f : Nat} (h : f ≤ 4) : p.readable f = p.written.getLsbD f := by
  rw [PacketRegister.readable, if_pos h]
  rfl

theorem readable_checksum (p : PacketRegister) : p.readable 5 = p.cksAssigned := rfl

/-! ### What a codec operation requested of an idle block does -/

section rows

variable {s : State}

theorem exec_pktClear_idle (hb : s.st.busy = false) :
    exec .pktClear s = .next ((s.setPkt s.pkt.clear).finish .unit) := by
  simp only [exec, execPktClear, serve_idle hb]

theorem exec_setCommand_idle (hb : s.st.busy = false) (c : Byte) :
    exec (.setCommand c) s = .next (setField s 0 { s.pkt with command := c }) := by
  simp only [exec, execSetCommand, serve_idle hb]

theorem exec_setPic_idle (hb : s.st.busy = false) (p : Byte) :
    exec (.setPic p) s = .next (setField s 1 { s.pkt with pic := p }) := by
  simp only [exec, execSetPic, serve_idle hb]

theorem exec_setOptions_idle (hb : s.st.busy = false) (v : Quad) :
    exec (.setOptions v) s = .next (setField s 2 { s.pkt with options := v }) := by
  simp only [exec, execSetOptions, serve_idle hb]

/-- With an operand of a length it takes, `SET_UID` or `SET_DATA` is like the other three. -/
theorem setSized_of_fits {fits : Bool} (hfits : fits = true) (k n : Nat) (p : PacketRegister) :
    setSized s k fits n p = setField s k p := by
  unfold setSized setField
  rw [if_pos hfits]
  split <;> rfl

theorem exec_setUid_idle (hb : s.st.busy = false) {u : List Byte} (hu : u.length ≤ 25) :
    exec (.setUid u) s = .next (setField s 3 { s.pkt with uid := uidField u }) := by
  have hfits : decide (u.length ≤ uidLen) = true := decide_eq_true hu
  simp only [exec, execSetUid, serve_idle hb, setSized_of_fits hfits]

theorem exec_setData_idle (hb : s.st.busy = false) {d : List Byte} (hd : d.length = s.cfg.dataSize) :
    exec (.setData d) s = .next (setField s 4 { s.pkt with data := d }) := by
  have hfits : (d.length == s.cfg.dataSize) = true := beq_iff_eq.mpr hd
  simp only [exec, execSetData, serve_idle hb, setSized_of_fits hfits]

theorem exec_getField_idle (hb : s.st.busy = false) {f : Byte} (hf : f.toNat ≤ 5) :
    exec (.getField f) s = .next (if s.pkt.readable f.toNat then s.finish (s.pkt.toPacket.field f.toNat)
      else s.raise (.fieldUnset f.toNat)) := by
  have hnumber : ¬ 6 ≤ f.toNat := by omega
  simp only [exec, execGetField, serve_idle hb, if_neg hnumber]

theorem exec_craft_idle (hb : s.st.busy = false) :
    exec .craft s = .next (if s.pkt.crafted then s.finish .unit
      else if s.pkt.full then (s.setPkt (s.pkt.craftWith (craftChecksum s.cfg.lut s.pkt))).finish .unit
      else s.raise (.notPopulated s.pkt.written)) := by
  simp only [exec, execCraft, serve_idle hb]

theorem exec_toBytes_idle (hb : s.st.busy = false) :
    exec .toBytes s = .next (if s.pkt.crafted then s.finish (.bytes s.pkt.wire) else s.raise .notCrafted) := by
  simp only [exec, execToBytes, serve_idle hb]

theorem exec_checkCrc_idle (hb : s.st.busy = false) :
    exec .checkCrc s = .next (if s.pkt.crafted then s.finish (.bit (checkCrcFn s.cfg.lut s.pkt.wire))
      else s.raise .notCrafted) := by
  simp only [exec, execCheckCrc, serve_idle hb]

theorem exec_decode_idle (hb : s.st.busy = false) (raw : List Byte) :
    exec (.decode raw) s = .next (if raw.length = s.cfg.frameLen
      then (s.setPkt (decodedRegister s.cfg.dataSize raw)).finish .unit
      else s.raise (.sizeMismatch raw.length s.cfg.frameLen)) := by
  simp only [exec, execDecode, serve_idle hb]

theorem exec_expectedSize_idle (hb : s.st.busy = false) :
    exec .expectedSize s = .next (s.finish (.nat (1 + 1 + 4 + 25 + s.cfg.dataSize + 2))) := by
  simp only [exec, execExpectedSize, serve_idle hb]

/-! ### The rows -/

theorem pktClear_row (hb : s.st.busy = false) :
    ∃ t, exec .pktClear s = .next t ∧ t.st.err = 0 ∧ t.pkt.phase = .empty :=
  ⟨_, exec_pktClear_idle hb, rfl, phase_eq_empty.mpr ⟨rfl, rfl⟩⟩

/-- What the row of the `SET_*` operations says of the state after one. -/
def State.SetRow (s t : State) : Prop :=
  (s.pkt.phase ≠ .crafted → t.st.err = 0 ∧ t.pkt.phase = .populated) ∧
  (s.pkt.phase = .crafted → t.st.err = 5 ∧ t.pkt = s.pkt)

theorem setField_row {k : Nat} {p : PacketRegister} (hk : k < 5) (hp : p.crafted = s.pkt.crafted) :
    s.SetRow (setField s k p) := by
  unfold State.SetRow setField
  rw [Ne, phase_eq_crafted]
  cases hc : s.pkt.crafted with
  | true => simp [BlockError.code]
  | false => simp [phase_mark hk (hp.trans hc)]

theorem set_row (hb : s.st.busy = false) {i : Instr}
    (hi : (∃ c, i = .setCommand c) ∨ (∃ p, i = .setPic p) ∨ (∃ v, i = .setOptions v) ∨
      (∃ u, u.length ≤ 25 ∧ i = .setUid u) ∨ (∃ d, d.length = s.cfg.dataSize ∧ i = .setData d)) :
    ∃ t, exec i s = .next t ∧ s.SetRow t := by
  rcases hi with ⟨c, rfl⟩ | ⟨p, rfl⟩ | ⟨v, rfl⟩ | ⟨u, hu, rfl⟩ | ⟨d, hd, rfl⟩
  · exact ⟨_, exec_setCommand_idle hb c, setField_row (by decide) rfl⟩
  · exact ⟨_, exec_setPic_idle hb p, setField_row (by decide) rfl⟩
  · exact ⟨_, exec_setOptions_idle hb v, setField_row (by decide) rfl⟩
  · exact ⟨_, exec_setUid_idle hb hu, setField_row (by decide) rfl⟩
  · exact ⟨_, exec_setData_idle hb hd, setField_row (by decide) rfl⟩

/-- `GET_FIELD` of a field number: a result or `FieldUnset`, as the field holds a value or not (R119). -/
theorem getField_err (hb : s.st.busy = false) {f : Byte} (hf : f.toNat ≤ 5) :
    ∃ t, exec (.getField f) s = .next t ∧ t.pkt = s.pkt ∧ t.st.err = if s.pkt.readable f.toNat then 0 else 6 := by
  refine ⟨_, exec_getField_idle hb hf, ?_⟩
  split <;> exact ⟨rfl, rfl⟩

theorem getField_row (hb : s.st.busy = false) (hp : s.pkt.Inv s.cfg) {f : Byte} (hf : f.toNat ≤ 5) :
    ∃ t, exec (.getField f) s = .next t ∧ t.pkt = s.pkt ∧
      (s.pkt.phase = .empty → t.st.err = 6) ∧ (s.pkt.phase = .crafted → t.st.err = 0) ∧
      (s.pkt.phase = .populated → f.toNat ≤ 4 → s.pkt.written.getLsbD f.toNat = true → t.st.err = 0) ∧
      (s.pkt.phase = .populated → f.toNat ≤ 4 → s.pkt.written.getLsbD f.toNat = false → t.st.err = 6) ∧
      (s.pkt.phase = .populated → f.toNat = 5 → t.st.err = 6) := by
  obtain ⟨t, ht, hpkt, herr⟩ := getField_err hb hf
  refine ⟨t, ht, hpkt, fun h => ?_, fun h => ?_, fun _ hle hw => ?_, fun _ hle hw => ?_, fun h h5 => ?_⟩
  · simp [herr, readable_of_empty hp h]
  · simp [herr, readable_of_crafted hp (phase_eq_crafted.mp h) f.toNat]
  · simp [herr, readable_of_le hle, hw]
  · simp [herr, readable_of_le hle, hw]
  · have hc := (phase_eq_populated.mp h).1
    simp [herr, h5, readable_checksum, ← hp.crafted_assigned, hc]

theorem craft_row (hb : s.st.busy = false) : ∃ t, exec .craft s = .next t ∧
    (s.pkt.phase = .crafted → t.st.err = 0 ∧ t.pkt = s.pkt) ∧
    (s.pkt.phase ≠ .crafted → s.pkt.written = 0b11111 → t.st.err = 0 ∧ t.pkt.phase = .crafted) ∧
    (s.pkt.phase ≠ .crafted → s.pkt.written ≠ 0b11111 → t.st.err = 4 ∧ t.pkt = s.pkt) := by
  refine ⟨_, exec_craft_idle hb, ?_⟩
  rw [Ne, phase_eq_crafted]
  split
  · rename_i hc
    simp [hc]
  · rename_i hc
    split
    · rename_i hfull
      have hw : s.pkt.written = 0b11111 := beq_iff_eq.mp hfull
      have hcrafted : (s.pkt.craftWith (craftChecksum s.cfg.lut s.pkt)).phase = .crafted := phase_eq_crafted.mpr rfl
      simp [hc, hw, hcrafted]
    · rename_i hfull
      have hw : s.pkt.written ≠ 0b11111 := fun h => hfull (beq_iff_eq.mpr h)
      exact ⟨fun h => absurd h hc, fun _ h => absurd h hw, fun _ _ => ⟨rfl, rfl⟩⟩

/-- `TO_BYTES` and `CHECK_CRC` read the wire bytes, which only a crafted packet has. -/
theorem wireReader_row (hb : s.st.busy = false) {i : Instr} (hi : i = .toBytes ∨ i = .checkCrc) :
    ∃ t, exec i s = .next t ∧ t.pkt = s.pkt ∧ (s.pkt.phase = .crafted → t.st.err = 0) ∧
      (s.pkt.phase ≠ .crafted → t.st.err = 1) := by
  have hread : ∃ v, exec i s = .next (if s.pkt.crafted then s.finish v else s.raise .notCrafted) := by
    rcases hi with rfl | rfl
    · exact ⟨_, exec_toBytes_idle hb⟩
    · exact ⟨_, exec_checkCrc_idle hb⟩
  obtain ⟨v, hv⟩ := hread
  refine ⟨_, hv, ?_⟩
  rw [Ne, phase_eq_crafted]
  split <;> simp [*, BlockError.code]

theorem decode_row (hb : s.st.busy = false) (raw : List Byte) : ∃ t, exec (.decode raw) s = .next t ∧
    (raw.length = 33 + s.cfg.dataSize → t.st.err = 0 ∧ t.pkt.phase = .crafted) ∧
    (raw.length ≠ 33 + s.cfg.dataSize → t.st.err = 2 ∧ t.pkt = s.pkt) := by
  refine ⟨_, exec_decode_idle hb raw, ?_⟩
  split
  · rename_i hl
    exact ⟨fun _ => ⟨rfl, phase_eq_crafted.mpr rfl⟩, fun hne => absurd hl hne⟩
  · rename_i hl
    exact ⟨fun h => absurd h hl, fun _ => ⟨rfl, rfl⟩⟩

theorem zeroDivisor_eq_none {payload : List Byte} (hcal : le16 payload 0 ≠ le16 payload 2)
    (hvdd : le16 payload 8 ≠ 0) : zeroDivisor (sensorWords payload) = none :=
  (if_neg hcal).trans (if_neg hvdd)

/-- `EXTRACT_SENSORS` finds no payload, or is past that check: then no `FieldUnset`, and a result where the payload is
long enough and no divisor is zero (R125). -/
theorem extractSensors_err (hb : s.st.busy = false) : ∃ t, exec .extractSensors s = .next t ∧ t.pkt = s.pkt ∧
    (s.pkt.isWritten 4 = false → t.st.err = 6) ∧
    (s.pkt.isWritten 4 = true → t.st.err ≠ 6 ∧
      (10 ≤ s.cfg.dataSize → le16 s.pkt.data 0 ≠ le16 s.pkt.data 2 → le16 s.pkt.data 8 ≠ 0 → t.st.err = 0)) := by
  simp only [exec, execExtractSensors, serve_idle hb]
  refine ⟨_, rfl, ?_⟩
  split
  · rename_i hw
    split
    · rename_i hshort
      exact ⟨rfl, by simp [hw], fun _ => ⟨by simp [BlockError.code], fun hlong => by omega⟩⟩
    · split
      · rename_i which hz
        refine ⟨rfl, by simp [hw], fun _ => ⟨by simp [BlockError.code], fun _ hcal hvdd => ?_⟩⟩
        rw [zeroDivisor_eq_none hcal hvdd] at hz
        cases hz
      · exact ⟨rfl, by simp [hw], fun _ => ⟨by simp, fun _ _ _ => rfl⟩⟩
  · rename_i hw
    exact ⟨rfl, fun _ => rfl, fun h => absurd h hw⟩

theorem extractSensors_row (hb : s.st.busy = false) (hp : s.pkt.Inv s.cfg) :
    ∃ t, exec .extractSensors s = .next t ∧ t.pkt = s.pkt ∧
      (s.pkt.phase = .empty → t.st.err = 6) ∧
      (s.pkt.phase = .populated → s.pkt.written.getLsbD 4 = false → t.st.err = 6) ∧
      (s.pkt.phase = .populated ∧ s.pkt.written.getLsbD 4 = true ∨ s.pkt.phase = .crafted →
        t.st.err ≠ 6 ∧
        (10 ≤ s.cfg.dataSize → le16 s.pkt.data 0 ≠ le16 s.pkt.data 2 → le16 s.pkt.data 8 ≠ 0 → t.st.err = 0)) := by
  obtain ⟨t, ht, hpkt, hunset, hset⟩ := extractSensors_err hb
  refine ⟨t, ht, hpkt, fun h => hunset (readable_of_empty hp h 4), fun _ hw => hunset hw, fun h => hset ?_⟩
  rcases h with ⟨-, hw⟩ | h
  · exact hw
  · exact readable_of_crafted hp (phase_eq_crafted.mp h) 4

end rows

/-- Settles O26, row by row. -/
theorem phaseTable : Obligations.PhaseTable := by
  intro s hb hp
  exact ⟨pktClear_row hb, fun _ hi => set_row hb hi, fun _ hf => getField_row hb hp hf, craft_row hb,
    fun _ hi => wireReader_row hb hi, decode_row hb, extractSensors_row hb hp, ⟨_, exec_expectedSize_idle hb, rfl, rfl⟩⟩

end Sys2Proof.Machine
end

section
/-! SUPPORT. The two encodings of spec/30_encoding.md: what each decoder answers (R70, R73, R82, R83, R86), the round
trips between the decoders and the encoder, and the UID field (R77). -/

namespace Sys2Proof.Machine

/-! ### The frame decoder -/

/-- The command values of R73, one after another. -/
theorem packetCommand_eq (c : Byte) (f : FrameBody) :
    packetCommand c f =
      if c = 1 then some (.ack f) else if c = 2 then some (.ping f) else if c = 3 then some (.read f)
      else if c = 4 then some (.write f) else if c = 5 then some (.sensors f) else if c = 6 then some (.load f)
      else if c = 7 then some (.exec f) else if c = 8 then some (.retr f) else if c = 255 then some (.err f)
      else none := by
  have hvalue (k : Byte) : c = k ↔ c.toNat = k.toNat := BitVec.toNat_inj.symm
  unfold packetCommand
  simp only [hvalue]
  split <;> simp_all

/-- A packet command of a known value carries the fields it was given, and its frame is that value with those fields. -/
theorem encode_packetCommand {c : Byte} {f : FrameBody} {i : Instr} (h : packetCommand c f = some i) :
    encode i = frameBytes c f ∧ ∀ ds, i.wf ds = f.wf ds := by
  rw [packetCommand_eq] at h
  split_ifs at h <;> cases h <;> subst c <;> exact ⟨rfl, fun _ => rfl⟩

/-- Every packet command has a value, with which it is read back from its fields (R73). -/
theorem exists_packetCommand {i : Instr} (h : i.lane = .frame) :
    ∃ c f, packetCommand c f = some i := by
  cases i with
  | ack f => exact ⟨1, f, rfl⟩
  | ping f => exact ⟨2, f, rfl⟩
  | read f => exact ⟨3, f, rfl⟩
  | write f => exact ⟨4, f, rfl⟩
  | sensors f => exact ⟨5, f, rfl⟩
  | load f => exact ⟨6, f, rfl⟩
  | exec f => exact ⟨7, f, rfl⟩
  | retr f => exact ⟨8, f, rfl⟩
  | err f => exact ⟨255, f, rfl⟩
  | _ => cases h

/-- What the frame decoder accepts (R86): a buffer of `FRAME_SIZE` bytes whose first byte is a command value. -/
theorem decodeFrame_eq_ok_iff {ds : Nat} {raw : List Byte} {i : Instr} :
    decodeFrame ds raw = .ok i ↔
      raw.length = frameSize ds ∧ packetCommand (byteAt raw 0) (frameFields ds raw) = some i := by
  unfold decodeFrame
  split
  · split <;> simp_all
  · simp_all

/-- The frame decoder undoes the encoder. -/
theorem decodeFrame_encode {ds : Nat} {i : Instr} (hlane : i.lane = .frame) (hwf : i.wf ds = true) :
    decodeFrame ds (encode i) = .ok i := by
  obtain ⟨c, f, hc⟩ := exists_packetCommand hlane
  obtain ⟨hbytes, hwf_eq⟩ := encode_packetCommand hc
  have hf : f.wf ds = true := (hwf_eq ds).symm.trans hwf
  have hhead : byteAt (frameBytes c f) 0 = c := rfl
  rw [hbytes, decodeFrame_eq_ok_iff, hhead, frameFields_frameBytes ds c f hf]
  exact ⟨frameBytes_length c f ds hf, hc⟩

/-- Settles O2: the bytes of a frame come back out of its fields. -/
theorem encodeOfDecodedFrameIsTheFrame : Obligations.EncodeOfDecodedFrameIsTheFrame := by
  intro ds raw i h
  obtain ⟨hlen, hc⟩ := decodeFrame_eq_ok_iff.mp h
  obtain ⟨hbytes, hwf_eq⟩ := encode_packetCommand hc
  exact ⟨decodeFrame_lane h, (hwf_eq ds).trans (frameFields_wf ds raw hlen),
    hbytes.trans (frameBytes_frameFields ds raw hlen)⟩

/-- Settles O3: a wrong length, or the command byte's value. -/
theorem frameDecoderReadsEachFieldInPlace : Obligations.FrameDecoderReadsEachFieldInPlace := by
  intro ds raw
  refine ⟨decodeFrame_wrongLength, fun hlen => ?_⟩
  intro f c
  have hsize : raw.length = frameSize ds := hlen
  have hchecksum : 31 + ds + 1 = 32 + ds := by omega
  have hfields : frameFields ds raw = f := by
    simp only [f, frameFields, byteAt, le16, le32, slice, headerSize, uidLen, hchecksum]
  have hhead : byteAt raw 0 = c := rfl
  rw [decodeFrame, if_pos hsize, hfields, hhead, packetCommand_eq]
  clear_value f c
  split_ifs <;> rfl

/-! ### The operands of a request -/

/-- A natural operand is read back, and the bytes after it are left (notes/assumptions/6.md). -/
theorem readNat_natBytesUpTo {fuel n : Nat} (h : n ≤ fuel) (rest : List Byte) :
    readNat (natBytesUpTo fuel n ++ rest) = some (n, rest) := by
  have hlast : ∀ m, m < 128 → readNat (BitVec.ofNat 8 m :: rest) = some (m, rest) := by
    intro m hm
    have hvalue : (BitVec.ofNat 8 m).toNat = m := by simp; omega
    simp only [readNat, hvalue, if_pos hm]
  induction fuel generalizing n with
  | zero => exact hlast n (by omega)
  | succ fuel ih =>
    unfold natBytesUpTo
    split
    · rename_i hn
      exact hlast n hn
    · rename_i hn
      have hvalue : (BitVec.ofNat 8 (n % 128 + 128)).toNat = n % 128 + 128 := by simp; omega
      have hmore : ¬ n % 128 + 128 < 128 := by omega
      have hsum : n % 128 + 128 - 128 + 128 * (n / 128) = n := by omega
      simp only [List.cons_append, readNat, hvalue, if_neg hmore, ih (n := n / 128) (by omega), Option.map_some, hsum]

theorem readNat_natBytes (n : Nat) (rest : List Byte) : readNat (natBytes n ++ rest) = some (n, rest) :=
  readNat_natBytesUpTo le_rfl rest

theorem quadOperand_toLe32 (code : BitVec 5) (v : Quad) (i : Quad → Instr) : quadOperand code (toLe32 v) i = .ok (i v) :=
  congrArg (fun w => Except.ok (i w)) (le32_toLe32 v)

theorem twoNatOperands_natBytes (code : BitVec 5) (m n : Nat) (i : Nat → Nat → Instr) :
    twoNatOperands code (natBytes m ++ natBytes n) i = .ok (i m n) := by
  have hsecond : readNat (natBytes n) = some (n, []) := by simpa using readNat_natBytes n []
  simp only [twoNatOperands, readNat_natBytes, hsecond]

/-! ### The decoder of the request port -/

/-- The request port's decoder undoes the encoder: where the operands are bytes it gives them back as they stand. -/
theorem decodeRequest_encode {i : Instr} (h : i.lane = .operation) : decodeRequest (encode i) = .ok i := by
  cases i with
  | ack | ping | read | write | sensors | load | exec | retr | err => cases h
  | setOptions v => exact quadOperand_toLe32 0x0B v .setOptions
  | receiveFrames timeout maxTries => exact twoNatOperands_natBytes 0x19 timeout maxTries .receiveFrames
  | _ => rfl

/-- Settles O1, in the instruction's own lane. -/
theorem decodeOfEncodeIsTheInstruction : Obligations.DecodeOfEncodeIsTheInstruction := by
  intro ds i hwf
  cases hlane : i.lane with
  | operation => exact decodeRequest_encode hlane
  | frame => exact decodeFrame_encode hlane hwf

/-- Settles O4: each word is the encoding of its instruction. -/
theorem writtenOutWordsDecode : Obligations.WrittenOutWordsDecode :=
  ⟨decodeRequest_encode (i := .setOptions 0x12345678) rfl, decodeRequest_encode (i := .getField 5) rfl,
    decodeRequest_encode (i := .getField 255) rfl, decodeRequest_encode (i := .send [0x02, 0x00]) rfl,
    decodeRequest_encode (i := .craft) rfl,
    decodeFrame_encode (i := .read ⟨2, 7, [0x44, 0x45, 0x56, 0x31] ++ zeros 21, zeros 4, 0x95A0⟩) rfl rfl⟩

/-! ### Reserved codes -/

/-- A decoder of operands does not answer that the operation code is reserved. -/
theorem noOperand_ne_reservedOp (code c : BitVec 5) (rest : List Byte) (i : Instr) :
    noOperand code rest i ≠ .error (.reservedOp c) := by
  unfold noOperand
  split <;> simp

theorem byteOperand_ne_reservedOp (code c : BitVec 5) (rest : List Byte) (i : Byte → Instr) :
    byteOperand code rest i ≠ .error (.reservedOp c) := by
  unfold byteOperand
  split <;> simp

theorem quadOperand_ne_reservedOp (code c : BitVec 5) (rest : List Byte) (i : Quad → Instr) :
    quadOperand code rest i ≠ .error (.reservedOp c) := by
  unfold quadOperand
  split <;> simp

theorem twoNatOperands_ne_reservedOp (code c : BitVec 5) (rest : List Byte) (i : Nat → Nat → Instr) :
    twoNatOperands code rest i ≠ .error (.reservedOp c) := by
  unfold twoNatOperands
  split
  · simp
  · split <;> simp

/-- The reserved operation codes are those of R83, whatever follows them. -/
theorem decodeOperation_reserved_iff (code : BitVec 5) (rest : List Byte) :
    decodeOperation code rest = .error (.reservedOp code) ↔
      code.toNat ∈ [0x00, 0x05, 0x06, 0x07, 0x0F, 0x16, 0x17, 0x1A, 0x1B, 0x1C, 0x1D, 0x1E, 0x1F] := by
  have hbound : code.toNat < 32 := code.isLt
  unfold decodeOperation
  split
  case h_20 =>
    simp only [imp_false, true_iff, List.mem_cons, List.not_mem_nil, or_false] at *
    omega
  all_goals simp [*, noOperand_ne_reservedOp, byteOperand_ne_reservedOp, quadOperand_ne_reservedOp,
    twoNatOperands_ne_reservedOp]

theorem serveRequest_reserved {s : State} {bytes : List Byte} {code : BitVec 5} (hb : s.st.busy = false)
    (h : decodeRequest bytes = .error (.reservedOp code)) :
    s.serveRequest bytes = .next (s.raise (.reservedOp code.toNat)) := by
  simp only [State.serveRequest, h, serve_idle hb]

/-- `PKT` has the fields 0 to 5 (R119). -/
theorem exec_getField_reserved {s : State} (hb : s.st.busy = false) {f : Byte} (hf : 6 ≤ f.toNat) :
    exec (.getField f) s = .next (s.raise (.reservedOp f.toNat)) := by
  simp only [exec, execGetField, serve_idle hb, if_pos hf]

/-- Settles O5: `ReservedOp` is raised, and raising changes nothing but `ST.err`. -/
theorem reservedCodesRaiseReservedOp : Obligations.ReservedCodesRaiseReservedOp := by
  refine ⟨decodeOperation_reserved_iff, fun s rest bytes code hu hb hplan hcode => ?_, fun s f hf hb => ?_⟩
  · exact (step_of_request hu (.inl hplan)).trans (serveRequest_reserved hb hcode)
  · exact exec_getField_reserved hb hf

/-! ### The UID field -/

/-- NUL padding on the right is stripped again, whatever its length (R77). -/
theorem uidString_append_zeros {s : List Byte} (h : s.getLast? ≠ some 0) (n : Nat) : uidString (s ++ zeros n) = s := by
  have hlast : s.rdropWhile (· == 0) = s := by
    refine List.rdropWhile_eq_self_iff.mpr fun hne hzero => h ?_
    rw [List.getLast?_eq_some_getLast hne, beq_iff_eq.mp hzero]
  have hstrip : uidString (s ++ zeros n) = s.rdropWhile (· == 0) := by
    rw [uidString, List.reverse_append, List.dropWhile_append_of_pos (by simp [zeros]), List.rdropWhile]
  exact hstrip.trans hlast

theorem uidField_length {s : List Byte} (h : s.length ≤ 25) : (uidField s).length = 25 := by
  simp only [uidField, uidLen, List.length_append, zeros_length]
  omega

/-- Settles O60: the field is the string and zeros. -/
theorem uidFieldKeepsTheString : Obligations.UidFieldKeepsTheString :=
  fun _ hlen hlast => ⟨uidField_length hlen, uidString_append_zeros hlast _⟩

end Sys2Proof.Machine
end

section
/-! SUPPORT. The streaming form of the CRC (R85, R105 to R107), through the step. -/

namespace Sys2Proof.Machine

/-- With no handler running, a request that decodes is run at once. -/
theorem step_of_encoded_request {s : State} {i : Instr} {rest : List Input} (hlane : i.lane = .operation)
    (hplan : s.ses.plan = []) (hscript : s.script = .request (encode i) :: rest) :
    step s = exec i { s with script := rest } :=
  (step_of_request (upcoming_of_script hscript) (.inl hplan)).trans
    (serveRequest_of_decoded (decodeRequest_encode hlane))

theorem exec_crcInit_idle {s : State} (hb : s.st.busy = false) :
    exec .crcInit s = .next ((s.setCrc 0).finish .unit) := by
  simp only [exec, execCrcInit, serve_idle hb]

theorem exec_crcByte_idle {s : State} (hb : s.st.busy = false) (b : Byte) :
    exec (.crcByte b) s = .next ((s.setCrc (crcStep s.cfg.lut s.crcAcc b)).finish .unit) := by
  simp only [exec, execCrcByte, serve_idle hb]

/-- The state after an operation of the streaming form: `rest` is still to come, and the accumulator is `acc`. -/
def State.streamed (s : State) (rest : List Input) (acc : Half) : State :=
  (State.setCrc { s with script := rest } acc).finish .unit

theorem step_crcByte_streamed {s : State} (hb : s.st.busy = false) (hplan : s.ses.plan = []) (b : Byte)
    (rest : List Input) (acc : Half) :
    step (s.streamed (.request [0x03, b] :: rest) acc) = .next (s.streamed rest (crcStep s.cfg.lut acc b)) :=
  (step_of_encoded_request (s := s.streamed (.request [0x03, b] :: rest) acc) (i := .crcByte b) rfl hplan rfl).trans
    (exec_crcByte_idle (s := s.streamed rest acc) hb b)

/-- Requesting `CRC_BYTE` of every byte of a buffer, after an operation that has ended well, folds the recurrence of R102
over it from the accumulator. -/
theorem run_crcBytes {s : State} {rest : List Input} (hb : s.st.busy = false) (hplan : s.ses.plan = [])
    (buffer : List Byte) (acc : Half) :
    Host.Core.run core buffer.length
        (s.streamed (buffer.map (fun b => Input.request [0x03, b]) ++ rest) acc) =
      .next (s.streamed rest (buffer.foldl (crcStep s.cfg.lut) acc)) := by
  induction buffer generalizing acc with
  | nil => rfl
  | cons b buffer ih =>
    exact run_of_step (step_crcByte_streamed hb hplan b _ acc) (ih _)

/-- Settles O10: `CRC_INIT` starts the fold at 0, where `CRC16` starts it. -/
theorem streamingCrcEqualsOneShot : Obligations.StreamingCrcEqualsOneShot := by
  intro s rest buffer hb hplan hscript
  have hinit : step s = .next (s.streamed (buffer.map (fun b => Input.request [0x03, b]) ++ rest) 0) :=
    (step_of_encoded_request (i := .crcInit) rfl hplan hscript).trans (exec_crcInit_idle hb)
  exact run_of_step hinit (run_crcBytes hb hplan buffer 0)

end Sys2Proof.Machine
end

section
/-! SUPPORT. The CRC16 Engine (R100 to R108): one step of the shift register is linear and injective, the table of R103
holds what eight steps leave of each byte, and so the table form is the bit-serial form and the fold inherits both. -/

namespace Sys2Proof.Machine

/-! ### The operations, on an idle block -/

theorem exec_crc16_idle {s : State} (hb : s.st.busy = false) (buffer : List Byte) :
    exec (.crc16 buffer) s = .next (s.finish (.half (crc16Fn s.cfg.lut buffer))) := by
  simp only [exec, execCrc16, serve_idle hb]

theorem exec_crcRead_idle {s : State} (hb : s.st.busy = false) :
    exec .crcRead s = .next (s.finish (.half s.crcAcc)) := by
  simp only [exec, execCrcRead, serve_idle hb]

/-- Settles O8: the recurrence is `crcStep`, and each operation ends well. -/
theorem crcOperationsUseTheRecurrence : Obligations.CrcOperationsUseTheRecurrence :=
  fun _ hb => ⟨exec_crc16_idle hb, exec_crcByte_idle hb, exec_crcRead_idle hb⟩

/-- Settles O9: the state `CRC_INIT` leaves is as idle as the one it found. -/
theorem crcInitClearsTheAccumulator : Obligations.CrcInitClearsTheAccumulator := by
  refine ⟨rfl, fun s hb => ?_⟩
  intro t
  have ht : t.st.busy = false := hb
  exact ⟨exec_crcInit_idle hb, exec_crcInit_idle ht, exec_crcRead_idle ht⟩

/-! ### The bit-serial register (R103, R104) -/

/-- A step moves the register down by one place, and feeds a bit that falls out back in. -/
theorem polyStep_eq_xor (t : Half) : polyStep t = (t >>> 1) ^^^ (if t.getLsbD 0 then 0xA001#16 else 0) := by
  unfold polyStep
  split <;> simp

theorem polyStep_xor (a b : Half) : polyStep (a ^^^ b) = polyStep a ^^^ polyStep b := by
  have hfeedback : ∀ x y : Bool, (if x ^^ y then 0xA001#16 else 0) =
      (if x then 0xA001#16 else 0) ^^^ (if y then 0xA001#16 else 0) := by decide
  simp only [polyStep_eq_xor, BitVec.getLsbD_xor, BitVec.ushiftRight_xor_distrib, hfeedback]
  ac_rfl

/-- The top bit of what a step feeds back shows the bit that fell out. -/
theorem polyStep_getLsbD_top (t : Half) : (polyStep t).getLsbD 15 = t.getLsbD 0 := by
  rw [polyStep_eq_xor]
  cases t.getLsbD 0 <;> simp

theorem polyStep_injective : Function.Injective polyStep := by
  intro a b h
  have hbit : a.getLsbD 0 = b.getLsbD 0 := by
    rw [← polyStep_getLsbD_top, h, polyStep_getLsbD_top]
  have hshift : a >>> 1 = b >>> 1 := by
    rw [polyStep_eq_xor, polyStep_eq_xor, hbit] at h
    exact (BitVec.xor_left_inj _).mp h
  refine BitVec.eq_of_getLsbD_eq fun i _ => ?_
  cases i with
  | zero => exact hbit
  | succ i => simpa [Nat.add_comm] using congrArg (BitVec.getLsbD · i) hshift

theorem polyByte_xor (a b : Half) : polyByte (a ^^^ b) = polyByte a ^^^ polyByte b := by
  simp only [polyByte, polyStep_xor]

theorem polyByte_injective : Function.Injective polyByte := polyStep_injective.iterate 8

/-- While no bit falls out, the register only moves down. -/
theorem polyStep_iterate_of_low_clear {t : Half} {n : Nat} (h : ∀ i < n, t.getLsbD i = false) :
    polyStep^[n] t = t >>> n := by
  induction n with
  | zero => simp
  | succ n ih =>
    have hlast : (t >>> n).getLsbD 0 = false := by simpa using h n (Nat.lt_succ_self n)
    rw [Function.iterate_succ_apply', ih fun i hi => h i (Nat.lt_succ_of_lt hi), polyStep, hlast,
      if_neg Bool.false_ne_true, BitVec.shiftRight_add]

theorem ushiftRight_eight_of_lt {t : Half} (h : t.toNat < 256) : t >>> 8 = 0 := by
  bv_omega

theorem lowByte_lt (t : Half) : (t &&& 0x00FF#16).toNat < 256 :=
  Nat.and_lt_two_pow (n := 8) _ (by decide)

theorem xor_lowByte_getLsbD (t : Half) {i : Nat} (hi : i < 8) : (t ^^^ (t &&& 0x00FF#16)).getLsbD i = false := by
  have hmask : ∀ j < 8, (0x00FF#16).getLsbD j = true := by decide
  rw [BitVec.getLsbD_xor, BitVec.getLsbD_and, hmask i hi, Bool.and_true, Bool.xor_self]

/-- Eight steps bring the high byte down unchanged; what they feed back is that of the low byte. -/
theorem polyByte_eq_xor (t : Half) : polyByte t = (t >>> 8) ^^^ polyByte (t &&& 0x00FF#16) := by
  have hhigh : polyByte (t ^^^ (t &&& 0x00FF#16)) = (t ^^^ (t &&& 0x00FF#16)) >>> 8 :=
    polyStep_iterate_of_low_clear fun _ hi => xor_lowByte_getLsbD t hi
  rw [polyByte_xor, BitVec.ushiftRight_xor_distrib, ushiftRight_eight_of_lt (lowByte_lt t)] at hhigh
  calc polyByte t = polyByte t ^^^ polyByte (t &&& 0x00FF#16) ^^^ polyByte (t &&& 0x00FF#16) := by simp
    _ = (t >>> 8) ^^^ polyByte (t &&& 0x00FF#16) := by rw [hhigh]; simp

/-! ### The table -/

/-- The table R103 prints, entry by entry: what eight steps of the register leave of each byte. -/
theorem defaultLut_eq_map : defaultLut = (List.range 256).map fun n => polyByte (BitVec.ofNat 16 n) := by
  decide +kernel

theorem defaultLut_getD_of_lt {t : Half} (h : t.toNat < 256) : defaultLut.getD t.toNat 0 = polyByte t := by
  simp [defaultLut_eq_map, h]

/-- Settles O11: the accumulator's high byte only moves down, and the table is read at the low byte. -/
theorem tableStepEqualsBitSerialStep : Obligations.TableStepEqualsBitSerialStep := by
  intro c b
  have hb : (b.setWidth 16 : Half).toNat < 256 := by bv_omega
  have hhigh : (c ^^^ b.setWidth 16) >>> 8 = c >>> 8 := by
    rw [BitVec.ushiftRight_xor_distrib, ushiftRight_eight_of_lt hb]
    exact BitVec.xor_zero
  rw [crcStep, defaultLut_getD_of_lt (lowByte_lt _), crcStepSerial, polyByte_eq_xor (c ^^^ b.setWidth 16), hhigh]

/-! ### What the fold inherits from the register, with the default table -/

theorem crcStep_default_eq_serial : crcStep defaultLut = crcStepSerial :=
  funext₂ tableStepEqualsBitSerialStep

theorem crcStepSerial_xor (c d : Half) (a b : Byte) :
    crcStepSerial (c ^^^ d) (a ^^^ b) = crcStepSerial c a ^^^ crcStepSerial d b := by
  have hregister : c ^^^ d ^^^ (a ^^^ b).setWidth 16 = (c ^^^ a.setWidth 16) ^^^ (d ^^^ b.setWidth 16) := by
    rw [BitVec.setWidth_xor]
    ac_rfl
  rw [crcStepSerial, hregister, polyByte_xor, crcStepSerial, crcStepSerial]

/-- Absorbing two buffers of one length from two accumulators, and their xor from the xor of the accumulators. -/
theorem foldl_crcStepSerial_xor {a b : List Byte} (h : a.length = b.length) (c d : Half) :
    (List.zipWith (· ^^^ ·) a b).foldl crcStepSerial (c ^^^ d) =
      a.foldl crcStepSerial c ^^^ b.foldl crcStepSerial d := by
  induction a generalizing b c d with
  | nil =>
    cases b with
    | nil => rfl
    | cons => cases h
  | cons x a ih =>
    cases b with
    | nil => cases h
    | cons y b =>
      simp only [List.zipWith_cons_cons, List.foldl_cons, crcStepSerial_xor]
      exact ih (Nat.succ.inj h) _ _

/-- Settles O12: `CRC16` starts at 0, which is `0 ^^^ 0`. -/
theorem crcIsLinear : Obligations.CrcIsLinear := by
  intro a b h
  unfold crc16Fn
  rw [crcStep_default_eq_serial]
  exact foldl_crcStepSerial_xor h 0 0

/-- Absorbing one byte loses nothing of the accumulator. -/
theorem crcStepSerial_left_injective (b : Byte) : Function.Injective (crcStepSerial · b) :=
  fun _ _ h => (BitVec.xor_left_inj _).mp (polyByte_injective h)

/-- Nor does it lose anything of the byte. -/
theorem crcStepSerial_right_injective (c : Half) : Function.Injective (crcStepSerial c) := by
  intro a b h
  have hwide : (a.setWidth 16 : Half) = b.setWidth 16 := (BitVec.xor_right_inj _).mp (polyByte_injective h)
  bv_omega

theorem foldl_crcStepSerial_injective (buffer : List Byte) : Function.Injective (buffer.foldl crcStepSerial) := by
  induction buffer with
  | nil => exact Function.injective_id
  | cons b buffer ih => exact ih.comp (crcStepSerial_left_injective b)

/-- Two buffers that differ in one byte have different CRCs (R108 (d) for any change within a byte). -/
theorem crc16Fn_default_ne_of_byte_ne {x y : Byte} (h : x ≠ y) (before after : List Byte) :
    crc16Fn defaultLut (before ++ x :: after) ≠ crc16Fn defaultLut (before ++ y :: after) := by
  simp only [crc16Fn, crcStep_default_eq_serial, List.foldl_append, List.foldl_cons]
  exact fun hfold => h (crcStepSerial_right_injective _ (foldl_crcStepSerial_injective after hfold))

theorem flipBit_ne (x : Byte) {k : Nat} (hk : k < 8) : x ^^^ (1#8 <<< k) ≠ x := by
  intro h
  simpa [hk] using congrArg (BitVec.getLsbD · k) h

/-- Settles O13: a flipped bit is a changed byte. -/
theorem crcDetectsEverySingleBit : Obligations.CrcDetectsEverySingleBit :=
  fun before after x _ hk => crc16Fn_default_ne_of_byte_ne (flipBit_ne x hk) before after

/-! ### Leading zeros, for any table whose entry 0 is 0 -/

theorem foldl_crcStep_zeros {lut : List Half} (h : lut.getD 0 0 = 0) (n : Nat) :
    (zeros n).foldl (crcStep lut) 0 = 0 := by
  have hzero : crcStep lut 0 0 = 0 := by simpa [crcStep] using h
  induction n with
  | zero => rfl
  | succ n ih => simpa only [zeros, List.replicate_succ, List.foldl_cons, hzero] using ih

theorem crc16Fn_zeros_append {lut : List Half} (h : lut.getD 0 0 = 0) (n : Nat) (b : List Byte) :
    crc16Fn lut (zeros n ++ b) = crc16Fn lut b := by
  rw [crc16Fn, List.foldl_append, foldl_crcStep_zeros h, crc16Fn]

theorem byteAt_zeros (n i : Nat) : byteAt (zeros n) i = 0 := by
  by_cases hi : i < n <;> simp [byteAt, zeros, hi]

theorem le16_zeros (n i : Nat) : le16 (zeros n) i = 0 := by
  simp [le16, byteAt_zeros]

/-- A buffer of zeros carries the checksum 0, which is its CRC. -/
theorem checkCrcFn_zeros {lut : List Half} (h : lut.getD 0 0 = 0) (n : Nat) : checkCrcFn lut (zeros n) = true := by
  have hslot : crc16Fn lut [0, 0] = 0 := foldl_crcStep_zeros h 2
  have htake : (zeros n).take ((zeros n).length - 2) = zeros (n - 2) := by simp [zeros]
  rw [checkCrcFn, htake, crc16Fn_zeros_append h, hslot, le16_zeros, beq_self_eq_true]

/-- Settles O25: a zero byte leaves the accumulator 0 at 0. -/
theorem leadingZerosAreInvisible : Obligations.LeadingZerosAreInvisible :=
  fun _ h => ⟨crc16Fn_zeros_append h, fun _ => ⟨checkCrcFn_zeros h _, byteAt_zeros _ _, le16_zeros _ _⟩⟩

end Sys2Proof.Machine
end

section
/-! SUPPORT. The Packet Codec (R110 to R129): the check of a frame seen as its body and its checksum, the rounding of
the sensor results, and the operations on an idle block. -/

namespace Sys2Proof.Machine

/-! ### The check of a frame (R123, R127, R128) -/

/-- A frame is a body and two bytes; the check compares the CRC of the body and an empty slot with those two. -/
theorem checkCrcFn_append_pair (lut : List Half) (body : List Byte) (a b : Byte) :
    checkCrcFn lut (body ++ [a, b]) = (crc16Fn lut (body ++ [0, 0]) == le16 [a, b] 0) := by
  simp [checkCrcFn, le16, byteAt, List.getD]

theorem checkCrcFn_append_toLe16 (lut : List Half) (body : List Byte) (k : Half) :
    checkCrcFn lut (body ++ toLe16 k) = (crc16Fn lut (body ++ toLe16 0) == k) := by
  conv => rhs; rw [← le16_toLe16 k]
  exact checkCrcFn_append_pair lut body _ _

/-- `decode_fn` of a well-formed frame answers its fields and its bytes (R122). -/
theorem decodeFn_frameBytes {ds : Nat} (c : Byte) {f : FrameBody} (h : f.wf ds = true) :
    decodeFn ds (frameBytes c f) = { command := c, pic := f.pic, options := f.options, uid := f.uid, data := f.data
                                     checksum := f.checksum, wire := frameBytes c f } := by
  have hfields (raw : List Byte) : decodeFn ds raw =
      { command := byteAt raw 0, pic := (frameFields ds raw).pic, options := (frameFields ds raw).options
        uid := (frameFields ds raw).uid, data := (frameFields ds raw).data
        checksum := (frameFields ds raw).checksum, wire := raw } := rfl
  rw [hfields, frameFields_frameBytes ds c f h]
  rfl

/-- Settles O23: the checksum `CRAFT` assigns is the one the check computes. -/
theorem craftedFrameRoundTrips : Obligations.CraftedFrameRoundTrips := by
  intro lut ds c p o u d hu hd k w
  have hwf : (FrameBody.mk p o u d k).wf ds = true := by
    simp [FrameBody.wf, FrameBody.uidFits, FrameBody.dataFits, uidLen, hu, hd]
  exact ⟨decodeFn_frameBytes c hwf, (checkCrcFn_append_toLe16 lut _ k).trans (beq_self_eq_true k)⟩

theorem le16_pair_inj {a b x y : Byte} (h : le16 [a, b] 0 = le16 [x, y] 0) : a = x ∧ b = y := by
  have hbytes := congrArg toLe16 h
  simpa [toLe16_le16] using hbytes

/-- Of two frames that differ in one byte at most one passes the check (R128, for any change within a byte): a changed
byte of the body changes the CRC and not the checksum, a changed byte of the checksum the other way round. -/
theorem checkCrcFn_false_of_byte_ne {x y : Byte} (hne : x ≠ y) {before after : List Byte}
    (hlen : 2 ≤ (before ++ x :: after).length) (hx : checkCrcFn defaultLut (before ++ x :: after) = true) :
    checkCrcFn defaultLut (before ++ y :: after) = false := by
  refine Bool.eq_false_iff.mpr fun hy => ?_
  rcases List.eq_nil_or_concat after with rfl | ⟨init, b, rfl⟩
  case inl =>
    obtain ⟨body, a, rfl⟩ := List.eq_nil_or_concat before |>.resolve_left (by rintro rfl; simp at hlen)
    simp only [List.concat_eq_append, List.append_assoc, List.singleton_append, checkCrcFn_append_pair,
      beq_iff_eq] at hx hy
    exact hne (le16_pair_inj (hx.symm.trans hy)).2
  case inr =>
    rcases List.eq_nil_or_concat init with rfl | ⟨mid, a, rfl⟩
    case inl =>
      simp only [List.concat_eq_append, List.nil_append, checkCrcFn_append_pair, beq_iff_eq] at hx hy
      exact hne (le16_pair_inj (hx.symm.trans hy)).1
    case inr =>
      have hsplit (z : Byte) : before ++ z :: (mid.concat a).concat b = (before ++ z :: mid) ++ [a, b] := by simp
      rw [hsplit, checkCrcFn_append_pair, beq_iff_eq] at hx hy
      have hcrc := hx.trans hy.symm
      simp only [List.append_assoc, List.cons_append] at hcrc
      exact crc16Fn_default_ne_of_byte_ne hne before (mid ++ [0, 0]) hcrc

/-- Settles O24: a flipped bit is a changed byte. -/
theorem everySingleBitFlipFailsTheCheck : Obligations.EverySingleBitFlipFailsTheCheck :=
  fun _ _ _ x _ hk hlen hx => checkCrcFn_false_of_byte_ne (flipBit_ne x hk).symm (by omega) hx

/-! ### Rounding half to even (R125, D9) -/

/-- `q` is the integer nearest to `num / den`, the even one on a tie. -/
def IsNearestEven (num den q : Int) : Prop :=
  2 * |num - q * den| ≤ |den| ∧ (2 * |num - q * den| = |den| → q % 2 = 0)

theorem isNearestEven_neg {num den q : Int} (h : IsNearestEven (-num) (-den) q) : IsNearestEven num den q := by
  have hdist : |(-num) - q * (-den)| = |num - q * den| := by
    rw [show (-num) - q * (-den) = -(num - q * den) by ring, abs_neg]
  simpa only [IsNearestEven, hdist, abs_neg] using h

/-- The quotient rounded down lies `num % den` below `num / den`. -/
theorem isNearestEven_floor {num den : Int} (hpos : 0 < den) (hle : 2 * (num % den) ≤ den)
    (htie : 2 * (num % den) = den → num / den % 2 = 0) : IsNearestEven num den (num / den) := by
  have hdist : |num - num / den * den| = num % den := by
    rw [mul_comm, ← Int.emod_def, abs_of_nonneg (Int.emod_nonneg num hpos.ne')]
  rw [IsNearestEven, hdist, abs_of_pos hpos]
  exact ⟨hle, htie⟩

/-- The next integer lies `den - num % den` above it. -/
theorem isNearestEven_ceil {num den : Int} (hpos : 0 < den) (hge : den ≤ 2 * (num % den))
    (htie : 2 * (num % den) = den → (num / den + 1) % 2 = 0) : IsNearestEven num den (num / den + 1) := by
  have hlt := Int.emod_lt_of_pos num hpos
  have hdist : |num - (num / den + 1) * den| = den - num % den := by
    rw [add_mul, one_mul, ← sub_sub, mul_comm, ← Int.emod_def, abs_of_neg (by omega), neg_sub]
  rw [IsNearestEven, hdist, abs_of_pos hpos]
  exact ⟨by omega, fun h => htie (by omega)⟩

theorem isNearestEven_roundRatio (num : Int) {den : Nat} (hden : 0 < den) :
    IsNearestEven num den (roundRatio num den) := by
  have hpos : (0 : Int) < den := Int.natCast_pos.mpr hden
  simp only [roundRatio]
  split_ifs with hless hmore heven
  · exact isNearestEven_floor hpos (by omega) (by omega)
  · exact isNearestEven_ceil hpos (by omega) (by omega)
  · exact isNearestEven_floor hpos (by omega) fun _ => heven
  · exact isNearestEven_ceil hpos (by omega) (by omega)

theorem isNearestEven_roundFraction (num : Int) {den : Int} (hden : den ≠ 0) :
    IsNearestEven num den (roundFraction num den) := by
  unfold roundFraction
  split
  · have h := isNearestEven_roundRatio (-num) (den := (-den).toNat) (by omega)
    rw [Int.toNat_of_nonneg (by omega)] at h
    exact isNearestEven_neg h
  · have h := isNearestEven_roundRatio num (den := den.toNat) (by omega)
    rwa [Int.toNat_of_nonneg (by omega)] at h

/-! ### `EXTRACT_SENSORS` (R125), check by check in the order of R235 -/

section extractSensors

variable {s : State}

theorem exec_extractSensors_unset (hb : s.st.busy = false) (hw : s.pkt.isWritten 4 = false) :
    exec .extractSensors s = .next (s.raise (.fieldUnset 4)) := by
  simp only [exec, execExtractSensors, serve_idle hb, hw, Bool.false_eq_true, if_false]

theorem exec_extractSensors_short (hb : s.st.busy = false) (hw : s.pkt.isWritten 4 = true)
    (hshort : s.cfg.dataSize < 10) :
    exec .extractSensors s = .next (s.raise (.payloadTooShort s.cfg.dataSize)) := by
  simp only [exec, execExtractSensors, serve_idle hb, if_pos hw, if_pos hshort]

theorem exec_extractSensors_zeroDivisor (hb : s.st.busy = false) (hw : s.pkt.isWritten 4 = true)
    (hlong : 10 ≤ s.cfg.dataSize) {which : Divisor} (hz : zeroDivisor (sensorWords s.pkt.data) = some which) :
    exec .extractSensors s = .next (s.raise (.divideByZero which)) := by
  simp only [exec, execExtractSensors, serve_idle hb, if_pos hw, if_neg (Nat.not_lt.mpr hlong), hz]

theorem exec_extractSensors_result (hb : s.st.busy = false) (hw : s.pkt.isWritten 4 = true)
    (hlong : 10 ≤ s.cfg.dataSize) (hz : zeroDivisor (sensorWords s.pkt.data) = none) :
    exec .extractSensors s = .next
      (s.finish (.sensors (temperatureE5 (sensorWords s.pkt.data)) (voltageE5 (sensorWords s.pkt.data)))) := by
  simp only [exec, execExtractSensors, serve_idle hb, if_pos hw, if_neg (Nat.not_lt.mpr hlong), hz]

end extractSensors

theorem zeroDivisor_calibration {payload : List Byte} (hcal : le16 payload 0 = le16 payload 2) :
    zeroDivisor (sensorWords payload) = some .calibration :=
  if_pos hcal

theorem zeroDivisor_supply {payload : List Byte} (hcal : le16 payload 0 ≠ le16 payload 2) (hvdd : le16 payload 8 = 0) :
    zeroDivisor (sensorWords payload) = some .supply :=
  (if_neg hcal).trans (if_pos hvdd)

/-- Settles O22: past the checks both divisors are nonzero, and both results are rounded quotients. -/
theorem extractSensorsRoundsTheExactRationals : Obligations.ExtractSensorsRoundsTheExactRationals := by
  intro s hb word fails
  refine ⟨exec_extractSensors_unset hb, exec_extractSensors_short hb,
    fun hw hlong hcal => exec_extractSensors_zeroDivisor hb hw hlong (zeroDivisor_calibration hcal),
    fun hw hlong hcal hvdd => exec_extractSensors_zeroDivisor hb hw hlong (zeroDivisor_supply hcal hvdd),
    fun hw hlong hcal hvdd =>
      ⟨_, _, exec_extractSensors_result hb hw hlong (zeroDivisor_eq_none hcal hvdd), ?_, ?_⟩⟩
  · have hden : ((word 0).toNat : Int) - (word 2).toNat ≠ 0 := fun h => hcal (by bv_omega)
    exact isNearestEven_roundFraction _ hden
  · have hden : ((word 8).toNat : Int) ≠ 0 := fun h => hvdd (by bv_omega)
    have h := isNearestEven_roundFraction (330000 * (word 6).toNat) hden
    rwa [IsNearestEven, Int.abs_natCast] at h

/-! ### The other operations, on an idle block -/

theorem readable_clear (p : PacketRegister) (f : Nat) : p.clear.readable f = false := by
  unfold PacketRegister.readable PacketRegister.isWritten
  split
  · exact BitVec.getLsbD_zero
  · rfl

/-- Settles O14: with the three flag elements clear nothing of `PKT` can be read. -/
theorem pktClearEmptiesThePacket : Obligations.PktClearEmptiesThePacket := by
  refine ⟨rfl, fun s hb => ?_⟩
  intro t
  have ht : t.st.busy = false := hb
  refine ⟨exec_pktClear_idle hb, phase_eq_empty.mpr ⟨rfl, rfl⟩, fun f hf => ?_, exec_toBytes_idle ht⟩
  have hunset : t.pkt.readable f.toNat = false := readable_clear s.pkt f.toNat
  rw [exec_getField_idle ht hf, hunset]
  rfl

section setters

variable {s : State}

theorem setField_of_uncrafted (hc : s.pkt.crafted = false) (k : Nat) (p : PacketRegister) :
    setField s k p = (s.setPkt (p.mark k)).finish .unit := by
  rw [setField, hc]
  rfl

theorem setField_of_crafted (hc : s.pkt.crafted = true) (k : Nat) (p : PacketRegister) :
    setField s k p = s.raise .packetLocked :=
  if_pos hc

/-- The lock stands before the length (R235). -/
theorem setSized_of_crafted (hc : s.pkt.crafted = true) (k : Nat) (fits : Bool) (n : Nat) (p : PacketRegister) :
    setSized s k fits n p = s.raise .packetLocked :=
  if_pos hc

theorem setSized_of_misfit (hc : s.pkt.crafted = false) {fits : Bool} (hfits : fits = false) (k n : Nat)
    (p : PacketRegister) : setSized s k fits n p = s.raise (.badOperand n) := by
  rw [setSized, hc, hfits]
  rfl

/-- On a crafted packet every `SET_*` operation raises `PacketLocked` (R126). -/
theorem exec_set_locked (hb : s.st.busy = false) (hc : s.pkt.crafted = true) {i : Instr}
    (hi : (∃ c, i = .setCommand c) ∨ (∃ p, i = .setPic p) ∨ (∃ v, i = .setOptions v) ∨ (∃ u, i = .setUid u) ∨
      (∃ d, i = .setData d)) :
    exec i s = .next (s.raise .packetLocked) := by
  rcases hi with ⟨c, rfl⟩ | ⟨p, rfl⟩ | ⟨v, rfl⟩ | ⟨u, rfl⟩ | ⟨d, rfl⟩
  · rw [exec_setCommand_idle hb, setField_of_crafted hc]
  · rw [exec_setPic_idle hb, setField_of_crafted hc]
  · rw [exec_setOptions_idle hb, setField_of_crafted hc]
  · simp only [exec, execSetUid, serve_idle hb, setSized_of_crafted hc]
  · simp only [exec, execSetData, serve_idle hb, setSized_of_crafted hc]

theorem exec_setUid_misfit (hb : s.st.busy = false) (hc : s.pkt.crafted = false) {u : List Byte}
    (hu : 25 < u.length) : exec (.setUid u) s = .next (s.raise (.badOperand u.length)) := by
  have hfits : decide (u.length ≤ uidLen) = false := decide_eq_false (Nat.not_le.mpr hu)
  simp only [exec, execSetUid, serve_idle hb, setSized_of_misfit hc hfits]

theorem exec_setData_misfit (hb : s.st.busy = false) (hc : s.pkt.crafted = false) {d : List Byte}
    (hd : d.length ≠ s.cfg.dataSize) : exec (.setData d) s = .next (s.raise (.badOperand d.length)) := by
  have hfits : (d.length == s.cfg.dataSize) = false := beq_false_of_ne hd
  simp only [exec, execSetData, serve_idle hb, setSized_of_misfit hc hfits]

end setters

/-- Settles O15: on an uncrafted packet a `SET_*` operation is a store and a mark. -/
theorem setFieldStoresAndMarks : Obligations.SetFieldStoresAndMarks := by
  intro s hb hc done
  refine ⟨fun c => ?_, fun p => ?_, fun v => ?_, fun u hu => ?_, fun d hd => ?_, fun k hk => phase_mark hk hc⟩
  · rw [exec_setCommand_idle hb, setField_of_uncrafted hc]; rfl
  · rw [exec_setPic_idle hb, setField_of_uncrafted hc]; rfl
  · rw [exec_setOptions_idle hb, setField_of_uncrafted hc]; rfl
  · rw [exec_setUid_idle hb hu, setField_of_uncrafted hc]; rfl
  · rw [exec_setData_idle hb hd, setField_of_uncrafted hc]; rfl

/-- Settles O16: a refusal is an error raised, which changes nothing but `ST.err`. -/
theorem setFieldRefusals : Obligations.SetFieldRefusals :=
  fun _ hb => ⟨fun hc _ hi => exec_set_locked hb hc hi,
    fun hc => ⟨fun _ hu => exec_setUid_misfit hb hc hu, fun _ hd => exec_setData_misfit hb hc hd⟩⟩

theorem readable_eq (p : PacketRegister) {f : Nat} (hf : f ≤ 5) :
    p.readable f = if f = 5 then p.cksAssigned else p.written.getLsbD f := by
  split
  case isTrue h => rw [h, readable_checksum]
  case isFalse h => exact readable_of_le (by omega)

/-- The field numbers of R82, one after another. -/
theorem Packet.field_eq (p : Packet) {f : Byte} (hf : f.toNat ≤ 5) :
    p.field f.toNat =
      if f = 0 then .byte p.command else if f = 1 then .byte p.pic else if f = 2 then .quad p.options
      else if f = 3 then .bytes p.uid else if f = 4 then .bytes p.data else .half p.checksum := by
  obtain rfl | rfl | rfl | rfl | rfl | rfl : f = 0 ∨ f = 1 ∨ f = 2 ∨ f = 3 ∨ f = 4 ∨ f = 5 := by bv_omega
  all_goals rfl

/-- Settles O17: a field is readable when it has been written, the checksum when it is assigned. -/
theorem getFieldAnswersWrittenFields : Obligations.GetFieldAnswersWrittenFields := by
  intro s f hb hf holds value
  rw [exec_getField_idle hb hf, readable_eq _ hf, Packet.field_eq _ hf]
  exact apply_ite Host.Outcome.next _ _ _

/-- Settles O18, by the three answers of `CRAFT`. -/
theorem craftAssignsChecksumAndWire : Obligations.CraftAssignsChecksumAndWire := by
  intro s hb
  rw [exec_craft_idle hb]
  refine ⟨fun hc => ?_, fun hc hw => ?_, fun hc hw => ?_⟩
  · rw [if_pos hc]; rfl
  · have hfull : s.pkt.full = false := beq_false_of_ne hw
    rw [hc, hfull]; rfl
  · have hfull : s.pkt.full = true := beq_iff_eq.mpr hw
    rw [hc, hfull]; rfl

/-- Settles O19, by whether the packet is crafted. -/
theorem wireReadersNeedACraftedPacket : Obligations.WireReadersNeedACraftedPacket := by
  intro s hb
  refine ⟨fun hc => ⟨?_, ?_⟩, fun hc i hi => ?_⟩
  · rw [exec_toBytes_idle hb, if_pos hc]; rfl
  · rw [exec_checkCrc_idle hb, if_pos hc]; rfl
  · rcases hi with rfl | rfl
    · rw [exec_toBytes_idle hb, hc]; rfl
    · rw [exec_checkCrc_idle hb, hc]; rfl

/-- Settles O20, by the length of the buffer. -/
theorem decodeTakesAFrameApart : Obligations.DecodeTakesAFrameApart := by
  intro s raw hb
  rw [exec_decode_idle hb]
  refine ⟨fun hl => ?_, fun hl => ?_⟩
  · have hframe : raw.length = s.cfg.frameLen := hl
    rw [if_pos hframe]; rfl
  · have hframe : raw.length ≠ s.cfg.frameLen := hl
    rw [if_neg hframe]; rfl

/-- Settles O21: the field sizes of R70, added up. -/
theorem expectedSizeIsTheFrameLength : Obligations.ExpectedSizeIsTheFrameLength :=
  ⟨rfl, fun _ hb => ⟨exec_expectedSize_idle hb, by omega⟩⟩

end Sys2Proof.Machine
end

section
/-! SUPPORT. The Frame Receiver (R143 to R159): each rule F0 to F6 as an equation of its step, what a drain makes of the
bytes it pops, and a whole `RECEIVE_FRAMES`. -/

namespace Sys2Proof.Machine

/-! ### The two operations, accepted or turned away -/

/-- Settles O27: an idle block serves the request. -/
theorem sendFlushesAndStarts : Obligations.SendFlushesAndStarts := by
  intro s w hb
  rw [exec, execSend, serve_idle hb]
  rfl

/-- Settles O29: an idle block serves the request, a busy one turns it away. -/
theorem receiveStartsFresh : Obligations.ReceiveStartsFresh := by
  refine fun s timeout maxTries => ⟨fun hb => ?_, fun hb => exec_busy _ hb⟩
  rw [exec, execReceiveFrames, serve_idle hb]
  rfl

/-! ### The rules F1 to F6, one equation each -/

section rules

variable {s : State}

/-- A running receiver takes its step at a turn. -/
theorem step_of_receive_turn {t : State} {rest : List Input} (hturn : s.Turn rest) (htx : s.tx.phase = .idle)
    (hfr : s.fr.phase ≠ .idle) (h : receiveStep { s with script := rest } = t) : step s = .next t := by
  simp [step_turn hturn, State.advance, htx, hfr, h]

/-- On a silent line it takes its step. -/
theorem step_of_silent_receive {t : State} (hscript : s.script = []) (hbeat : s.beat = []) (htx : s.tx.phase = .idle)
    (hfr : s.fr.phase ≠ .idle) (h : receiveStep s = t) : step s = .next t := by
  simp [step_of_silence hscript hbeat, State.advance, htx, hfr, h]

/-- F1 and F5 (R146, R150). -/
theorem receiveStep_asleep (hp : s.fr.phase = .initWait ∨ s.fr.phase = .sleep) :
    receiveStep s = { s with fr := { s.fr with phase := .sample } } := by
  rcases hp with hp | hp <;> simp only [receiveStep, hp, State.setFr]

/-- F2 with the budget exhausted (R147). -/
theorem receiveStep_exhausted (hp : s.fr.phase = .sample) (hi : s.fr.iter = s.fr.maxTries) :
    receiveStep s = { s with fr := { s.fr with phase := .done } } := by
  simp only [receiveStep, hp, receiveSample, if_pos hi, State.setFr]

/-- F2 with tries left (R147). -/
theorem receiveStep_sample (hp : s.fr.phase = .sample) (hi : s.fr.iter ≠ s.fr.maxTries) :
    receiveStep s = { s with fr := { s.fr with
      hist := (s.rx.length :: s.fr.hist).take s.fr.histCap, phase := .drain } } := by
  simp only [receiveStep, hp, receiveSample, if_neg hi, State.setFr, State.rxLen]

/-- F3 (R148), with the buffer R155 promises. -/
theorem receiveStep_byte {b : Byte} {more : List Byte} (hp : s.fr.phase = .drain) (hrx : s.rx = b :: more)
    (hbuf : s.fr.buf.length < s.cfg.frameLen) :
    receiveStep s = { s with rx := more, fr := s.fr.absorb s.cfg (s.fr.buf ++ [b]) } := by
  have hfits : (s.fr.buf ++ [b]).length ≤ s.cfg.frameLen := by simpa using hbuf
  simp only [receiveStep, hp, hrx, receiveByte, if_pos hfits, State.setFr, State.setRx]

/-- F4 (R149). -/
theorem receiveStep_endDrain (hp : s.fr.phase = .drain) (hrx : s.rx = []) :
    receiveStep s = { s with fr := { s.fr with
      iter := s.fr.iter + 1, phase := if s.fr.quiet then .done else .sleep } } := by
  simp only [receiveStep, hp, hrx, receiveEndDrain, State.setFr]

/-- F6 (R151). -/
theorem receiveStep_done (hp : s.fr.phase = .done) :
    receiveStep s = { s with
      fr := { s.fr with buf := [], phase := .idle }
      st := { err := 0, busy := false }
      resp := .ok (.frames (s.fr.packets.zip s.fr.crcOk)) } := by
  simp only [receiveStep, hp]
  rfl

end rules

/-- A buffer of `FRAME_SIZE` bytes becomes a packet (R148). -/
theorem FrameReceiver.absorb_full {c : Config} {f : FrameReceiver} {buf : List Byte} (h : buf.length = c.frameLen) :
    f.absorb c buf = { f with
      packets := f.packets ++ [decodeFn c.dataSize buf]
      crcOk := f.crcOk ++ [checkCrcFn c.lut buf]
      buf := [] } :=
  if_pos h

theorem FrameReceiver.absorb_partial {c : Config} {f : FrameReceiver} {buf : List Byte} (h : buf.length ≠ c.frameLen) :
    f.absorb c buf = { f with buf := buf } :=
  if_neg h

/-- The quiescence test in the words of R149 (D12). -/
theorem FrameReceiver.quiet_iff (f : FrameReceiver) :
    f.quiet = true ↔ f.hist.length = f.maxTries / 2 ∧ (∀ n ∈ f.hist, n = 0) ∧ 1 ≤ f.packets.length := by
  simp [FrameReceiver.quiet, FrameReceiver.histCap, and_assoc, Nat.one_le_iff_ne_zero]

/-- Settles O31, by whether the budget is exhausted. -/
theorem sampleRecordsTheAvailableCount : Obligations.SampleRecordsTheAvailableCount := by
  intro s rest hturn htx hp
  have hfr : s.fr.phase ≠ .idle := by simp [hp]
  exact ⟨fun hi => step_of_receive_turn hturn htx hfr (receiveStep_exhausted hp hi),
    fun hi => step_of_receive_turn hturn htx hfr (receiveStep_sample hp hi)⟩

/-- Settles O32, by whether the byte fills the buffer. -/
theorem drainMovesOneByte : Obligations.DrainMovesOneByte := by
  intro s rest b more hturn htx hp hrx hbuf
  have hstep := step_of_receive_turn hturn htx (by simp [hp]) (receiveStep_byte hp hrx hbuf)
  refine ⟨fun hroom => ?_, fun hfull => ?_⟩
  · have hpartial : (s.fr.buf ++ [b]).length ≠ s.cfg.frameLen := by rw [List.length_append]; exact hroom.ne
    rw [hstep, FrameReceiver.absorb_partial hpartial]
  · have hframe : (s.fr.buf ++ [b]).length = s.cfg.frameLen := by rw [List.length_append]; exact hfull
    rw [hstep, FrameReceiver.absorb_full hframe]

/-- Settles O33, by the outcome of the quiescence test. -/
theorem drainEndsWithTheQuiescenceTest : Obligations.DrainEndsWithTheQuiescenceTest := by
  intro s rest hturn htx hp hrx
  have hstep := step_of_receive_turn hturn htx (by simp [hp]) (receiveStep_endDrain hp hrx)
  rw [hstep, ← FrameReceiver.quiet_iff]
  exact ⟨fun hq => by rw [if_pos hq], fun hq => by rw [if_neg hq]⟩

/-- Settles O34: F6 at a turn. -/
theorem receiveDeliversItsPackets : Obligations.ReceiveDeliversItsPackets :=
  fun _ _ hturn htx hp => step_of_receive_turn hturn htx (by simp [hp]) (receiveStep_done hp)

end Sys2Proof.Machine
end

section
/-! SUPPORT. When a call of `RECEIVE_FRAMES` ends (R157, R268, R269): on a line with finitely many bytes still to come
every turn leaves less to do; on a line that brings a byte for every byte popped a drain goes on for ever. -/

namespace Sys2Proof.Machine

/-! ### A finite line -/

/-- How far a phase is from the end of its iteration. -/
def ReceivePhase.rank : ReceivePhase → Nat
  | .initWait | .sleep => 3
  | .sample => 2
  | .drain => 1
  | .idle | .done => 0

/-- What a call still has to do at most: entries to take, bytes to pop, iterations to count. A byte still to be pushed
counts twice, since it has then to be popped. -/
def State.receiveWork (s : State) : Nat :=
  2 * s.script.length + s.rx.length + 3 * (s.fr.maxTries - s.fr.iter) + s.fr.phase.rank

/-- A byte in the buffer moves no counter of the receiver. -/
theorem FrameReceiver.absorb_counters (f : FrameReceiver) (c : Config) (buf : List Byte) :
    (f.absorb c buf).phase = f.phase ∧ (f.absorb c buf).iter = f.iter ∧ (f.absorb c buf).maxTries = f.maxTries := by
  unfold FrameReceiver.absorb
  split <;> simp

/-- Until it is done a running receiver goes on, with less left to do. -/
theorem receiveStep_progress {s : State} (hs : s.fr.Inv s.cfg) (hidle : s.fr.phase ≠ .idle)
    (hdone : s.fr.phase ≠ .done) :
    (receiveStep s).fr.phase ≠ .idle ∧ (receiveStep s).receiveWork < s.receiveWork := by
  cases hp : s.fr.phase with
  | idle => contradiction
  | done => contradiction
  | initWait =>
    rw [receiveStep_asleep (.inl hp)]
    simp [State.receiveWork, ReceivePhase.rank, hp]
  | sleep =>
    rw [receiveStep_asleep (.inr hp)]
    simp [State.receiveWork, ReceivePhase.rank, hp]
  | sample =>
    by_cases hi : s.fr.iter = s.fr.maxTries
    · rw [receiveStep_exhausted hp hi]
      simp [State.receiveWork, ReceivePhase.rank, hp]
    · rw [receiveStep_sample hp hi]
      simp [State.receiveWork, ReceivePhase.rank, hp]
  | drain =>
    cases hrx : s.rx with
    | cons b more =>
      rw [receiveStep_byte hp hrx hs.buf_bound]
      obtain ⟨hphase, hiter, htries⟩ := s.fr.absorb_counters s.cfg (s.fr.buf ++ [b])
      simp [State.receiveWork, hphase, hiter, htries, hp, hrx]
    | nil =>
      have htries := hs.drain_bound hp
      rw [receiveStep_endDrain hp hrx]
      split <;> simp [State.receiveWork, ReceivePhase.rank, hp] <;> omega

/-- A running call on a line that brings finitely many bytes, and turns, and then falls silent. -/
structure State.FiniteLine (s : State) : Prop where
  inv : s.Inv
  running : s.fr.phase ≠ .idle
  silent : s.beat = []
  script : ∀ i ∈ s.script, i = .turn ∨ ∃ b, i = .push b

/-- What comes next is a byte of the schedule, or a turn. -/
theorem finiteLine_next {s : State} (h : s.FiniteLine) :
    (∃ b rest, s.script = .push b :: rest) ∨
      ∃ rest, s.Turn rest ∧ rest.length ≤ s.script.length ∧ ∀ i ∈ rest, i ∈ s.script := by
  cases hscript : s.script with
  | nil => exact .inr ⟨[], by simp [State.Turn, upcoming_of_nil hscript, h.silent], by simp⟩
  | cons i rest =>
    rcases h.script i (by simp [hscript]) with rfl | ⟨b, rfl⟩
    · exact .inr ⟨rest, upcoming_of_script hscript, by simp, fun _ => List.mem_cons_of_mem _⟩
    · exact .inl ⟨b, rest, rfl⟩

/-- The call has ended with its result. -/
def State.Delivered (s : State) : Prop :=
  s.fr.phase = .idle ∧ s.st = { err := 0, busy := false } ∧ s.resp = .ok (.frames (s.fr.packets.zip s.fr.crcOk))

/-- On a finite line a step ends the call, or leaves less to do. -/
theorem finiteLine_step {s : State} (h : s.FiniteLine) :
    ∃ t, step s = .next t ∧ (t.Delivered ∨ t.FiniteLine ∧ t.receiveWork < s.receiveWork) := by
  rcases finiteLine_next h with ⟨b, rest, hscript⟩ | ⟨rest, hturn, hlen, hmem⟩
  · have hstep := step_of_push (upcoming_of_script hscript)
    refine ⟨_, hstep, .inr ⟨⟨stepKeepsTheInvariant s _ h.inv hstep, h.running, h.silent, fun i hi => ?_⟩, ?_⟩⟩
    · exact h.script i (by simp [hscript, show i ∈ rest from hi])
    · simp only [State.receiveWork, hscript, List.length_append, List.length_cons, List.length_nil]
      omega
  · have htx := h.inv.block.one_running.resolve_right h.running
    have hstep := step_of_receive_turn hturn htx h.running rfl
    refine ⟨_, hstep, ?_⟩
    by_cases hdone : s.fr.phase = .done
    · rw [receiveStep_done (s := { s with script := rest }) hdone]
      exact .inl ⟨rfl, rfl, rfl⟩
    · obtain ⟨hrunning, hless⟩ := receiveStep_progress (s := { s with script := rest }) h.inv.block.fr h.running hdone
      obtain ⟨-, -, -, -, hscript, hbeat, -⟩ := receiveStep_frame { s with script := rest }
      refine .inr ⟨⟨stepKeepsTheInvariant s _ h.inv hstep, hrunning, hbeat.trans h.silent, fun i hi => ?_⟩, ?_⟩
      · rw [hscript] at hi
        exact h.script i (hmem i hi)
      · refine hless.trans_le ?_
        simp only [State.receiveWork]
        omega

/-- The call ends, by induction on what is left to do. -/
theorem finiteLine_ends {s : State} (h : s.FiniteLine) :
    ∃ (n : Nat) (t : State), Host.Core.run core n s = .next t ∧ t.Delivered := by
  induction hw : s.receiveWork using Nat.strongRecOn generalizing s with
  | ind w ih =>
    obtain ⟨t, hstep, hdelivered | ⟨hline, hless⟩⟩ := finiteLine_step h
    · exact ⟨1, t, run_of_step hstep rfl, hdelivered⟩
    · obtain ⟨n, u, hrun, hdelivered⟩ := ih t.receiveWork (hw ▸ hless) hline rfl
      exact ⟨n + 1, u, run_of_step hstep hrun, hdelivered⟩

/-! ### A babbling line -/

/-- What every step keeps holds after any number of steps. -/
theorem run_keeps {P : State → Prop} (hP : ∀ s, P s → ∃ t, step s = .next t ∧ P t) (n : Nat) {s : State} (hs : P s) :
    ∃ t, Host.Core.run core n s = .next t ∧ P t := by
  induction n generalizing s with
  | zero => exact ⟨s, rfl, hs⟩
  | succ n ih =>
    obtain ⟨t, hstep, ht⟩ := hP s hs
    obtain ⟨u, hrun, hu⟩ := ih ht
    exact ⟨u, run_of_step hstep hrun, hu⟩

/-- A draining receiver on a line that brings the byte `b` before every turn: there is always a byte to pop at the
turn, and one more between the push and the turn. -/
structure State.Babbles (b : Byte) (s : State) : Prop where
  inv : s.Inv
  draining : s.fr.phase = .drain
  beat : s.beat = [.push b]
  available : s.script = [] ∧ 1 ≤ s.rx.length ∨ s.script = [.turn] ∧ 2 ≤ s.rx.length

/-- A push adds a byte and the turn after it pops one, so the drain goes on (R157). -/
theorem babbles_step {b : Byte} {s : State} (h : s.Babbles b) : ∃ t, step s = .next t ∧ t.Babbles b := by
  rcases h.available with ⟨hscript, hrx⟩ | ⟨hscript, hrx⟩
  · have hstep := step_of_push (b := b) (rest := [.turn]) (by rw [upcoming_of_nil hscript, h.beat]; rfl)
    refine ⟨_, hstep, stepKeepsTheInvariant s _ h.inv hstep, h.draining, h.beat, .inr ⟨rfl, ?_⟩⟩
    rw [List.length_append]
    exact Nat.add_le_add_right hrx 1
  · obtain ⟨a, more, hcons⟩ := List.exists_cons_of_length_pos (Nat.lt_of_lt_of_le Nat.two_pos hrx)
    have hrunning : s.fr.phase ≠ .idle := by simp [h.draining]
    have hbyte := receiveStep_byte (s := { s with script := [] }) h.draining hcons h.inv.block.fr.buf_bound
    have hstep := step_of_receive_turn (upcoming_of_script hscript)
      (h.inv.block.one_running.resolve_right hrunning) hrunning hbyte
    refine ⟨_, hstep, stepKeepsTheInvariant s _ h.inv hstep, ?_, h.beat, .inl ⟨rfl, ?_⟩⟩
    · exact (FrameReceiver.absorb_counters _ _ _).1.trans h.draining
    · rw [hcons] at hrx
      exact Nat.le_of_succ_le_succ hrx

/-- Settles O36: a finite line leaves less to do at every step, a babbling one keeps the receiver draining. -/
theorem receiveEndsOnceTheLineFallsSilent : Obligations.ReceiveEndsOnceTheLineFallsSilent := by
  refine ⟨fun s hs hrunning hbeat hscript => finiteLine_ends ⟨hs, hrunning, hbeat, hscript⟩,
    fun s b hs hdrain hrx hscript hbeat n => ?_⟩
  have hbabbles : s.Babbles b :=
    ⟨hs, hdrain, hbeat, .inl ⟨hscript, Nat.one_le_iff_ne_zero.mpr (by simpa using hrx)⟩⟩
  obtain ⟨t, hrun, ht⟩ := run_keeps (fun _ => babbles_step) n hbabbles
  exact ⟨t, hrun, ht.draining, ht.inv.block.busy_running.mpr (.inr (by simp [ht.draining]))⟩

end Sys2Proof.Machine
end

section
/-! SUPPORT. `RECEIVE_FRAMES` on a channel that is silent from the call on (R144, R154 to R156): the whole frames of a
byte stream grow with it as the receiver's packets do, the first iteration drains `RX.fifo`, and the ones after it sample
zeros until the history is full of them or the budget is exhausted. -/

namespace Sys2Proof.Machine

/-! ### Runs -/

/-- A run of `n` steps and one of `m` after it. -/
theorem run_of_run {s t : State} {n m : Nat} {out : Out} (h : Host.Core.run core n s = .next t)
    (hrun : Host.Core.run core m t = out) : Host.Core.run core (n + m) s = out := by
  induction n generalizing s with
  | zero =>
    cases h
    rw [Nat.zero_add]
    exact hrun
  | succ n ih =>
    simp only [Host.Core.run] at h
    split at h
    case h_1 u hstep =>
      rw [Nat.add_right_comm]
      exact run_of_step hstep (ih h)
    case h_2 => cases h
    case h_3 => cases h

theorem run_one {s t : State} (h : step s = .next t) : Host.Core.run core 1 s = .next t := run_of_step h rfl

/-! ### The whole frames of a growing stream -/

/-- The bytes of a stream after its whole frames of `size` bytes: a partial frame (R155). -/
def partialFrame (size : Nat) (stream : List Byte) : List Byte := stream.drop (stream.length / size * size)

theorem partialFrame_length (size : Nat) (stream : List Byte) :
    (partialFrame size stream).length = stream.length % size := by
  rw [partialFrame, List.length_drop, Nat.mul_comm, Nat.mod_eq_sub]

/-- A whole frame does not see the bytes after it. -/
theorem slice_append {l : List Byte} {i n : Nat} (h : i + n ≤ l.length) (more : List Byte) :
    slice (l ++ more) i n = slice l i n := by
  have hkept : n ≤ (l.drop i).length := by rw [List.length_drop]; omega
  rw [slice, slice, List.drop_append_of_le_length (by omega), List.take_append_of_le_length hkept]

/-- The frames before the last one of a longer stream. -/
theorem map_slice_append (size : Nat) (l more : List Byte) :
    ((List.range (l.length / size)).map fun k => slice (l ++ more) (k * size) size) = wholeFrames size l := by
  refine List.map_congr_left fun k hk => slice_append ?_ more
  calc k * size + size = (k + 1) * size := (Nat.succ_mul k size).symm
    _ ≤ l.length / size * size := Nat.mul_le_mul_right size (List.mem_range.mp hk)
    _ ≤ l.length := Nat.div_mul_le_self _ _

/-- A byte that does not complete the partial frame joins it. -/
theorem frames_of_partial {size : Nat} {l : List Byte} {b : Byte} (h : ¬ size ∣ l.length + 1) :
    wholeFrames size (l ++ [b]) = wholeFrames size l ∧
      partialFrame size (l ++ [b]) = partialFrame size l ++ [b] := by
  have hdiv : (l ++ [b]).length / size = l.length / size := by
    rw [List.length_append, List.length_singleton, Nat.succ_div_of_not_dvd h]
  constructor
  · rw [← map_slice_append size l [b], wholeFrames, hdiv]
  · rw [partialFrame, hdiv, List.drop_append_of_le_length (Nat.div_mul_le_self _ _), partialFrame]

/-- A byte that completes the partial frame makes it the last whole one. -/
theorem frames_of_full {size : Nat} {l : List Byte} {b : Byte} (h : size ∣ l.length + 1) :
    wholeFrames size (l ++ [b]) = wholeFrames size l ++ [partialFrame size l ++ [b]] ∧
      partialFrame size (l ++ [b]) = [] := by
  have hdiv : (l ++ [b]).length / size = l.length / size + 1 := by
    rw [List.length_append, List.length_singleton, Nat.succ_div_of_dvd h]
  have hall : (l.length / size + 1) * size = (l ++ [b]).length := by
    rw [← hdiv, Nat.div_mul_cancel (by simpa using h)]
  have hlast : (l ++ [b]).drop (l.length / size * size) = partialFrame size l ++ [b] :=
    List.drop_append_of_le_length (Nat.div_mul_le_self _ _)
  constructor
  · rw [wholeFrames, hdiv, List.range_succ, List.map_append, map_slice_append, List.map_singleton, slice, hlast,
      List.take_of_length_le]
    rw [← hlast, List.length_drop, ← hall, Nat.succ_mul]
    omega
  · rw [partialFrame, hdiv, hall, List.drop_length]

/-- One more than a remainder is the divisor exactly where the next number is divisible. -/
theorem mod_succ_eq_iff_dvd {m n : Nat} (hn : 0 < n) : m % n + 1 = n ↔ n ∣ m + 1 := by
  have hdvd : n ∣ m + 1 ↔ n ∣ m % n + 1 := by
    conv => lhs; rw [← Nat.div_add_mod m n, Nat.add_assoc, Nat.dvd_add_right (Nat.dvd_mul_right n _)]
  rw [hdvd]
  exact ⟨fun h => by rw [h], fun h => Nat.le_antisymm (Nat.mod_lt m hn) (Nat.le_of_dvd (Nat.succ_pos _) h)⟩

theorem wholeFrames_eq_nil {size : Nat} {l : List Byte} (h : l.length < size) : wholeFrames size l = [] := by
  rw [wholeFrames, Nat.div_eq_of_lt h]
  rfl

theorem wholeFrames_ne_nil {size : Nat} {l : List Byte} (hsize : 0 < size) (h : size ≤ l.length) :
    wholeFrames size l ≠ [] := by
  have := Nat.div_pos h hsize
  simp only [wholeFrames, ne_eq, List.map_eq_nil_iff, List.range_eq_nil]
  omega

/-! ### The drain -/

theorem frameLen_pos (c : Config) : 0 < c.frameLen := Nat.add_pos_left (by decide) _

/-- The receiver once it has popped the bytes `popped` since F0 (R155). -/
def FrameReceiver.holding (f : FrameReceiver) (c : Config) (popped : List Byte) : FrameReceiver :=
  { f with
    packets := (wholeFrames c.frameLen popped).map (decodeFn c.dataSize)
    crcOk := (wholeFrames c.frameLen popped).map (checkCrcFn c.lut)
    buf := partialFrame c.frameLen popped }

theorem FrameReceiver.holding_buf_bound (f : FrameReceiver) (c : Config) (popped : List Byte) :
    (f.holding c popped).buf.length < c.frameLen :=
  (partialFrame_length _ _).trans_lt (Nat.mod_lt _ (frameLen_pos c))

/-- One byte more (R148, R155). -/
theorem FrameReceiver.absorb_holding (f : FrameReceiver) (c : Config) (popped : List Byte) (b : Byte) :
    (f.holding c popped).absorb c ((f.holding c popped).buf ++ [b]) = f.holding c (popped ++ [b]) := by
  have hfills : ((f.holding c popped).buf ++ [b]).length = c.frameLen ↔ c.frameLen ∣ popped.length + 1 := by
    rw [← mod_succ_eq_iff_dvd (frameLen_pos c), ← partialFrame_length, List.length_append]
    rfl
  by_cases hfull : c.frameLen ∣ popped.length + 1
  · obtain ⟨hwhole, hpartial⟩ := frames_of_full (b := b) hfull
    rw [FrameReceiver.absorb_full (hfills.mpr hfull)]
    simp [FrameReceiver.holding, hwhole, hpartial]
  · obtain ⟨hwhole, hpartial⟩ := frames_of_partial (b := b) hfull
    rw [FrameReceiver.absorb_partial (mt hfills.mp hfull)]
    simp [FrameReceiver.holding, hwhole, hpartial]

/-- The drain of a silent line pops the bytes `more` (R148). -/
theorem run_drain {s : State} {popped more : List Byte} {f : FrameReceiver} (hscript : s.script = [])
    (hbeat : s.beat = []) (htx : s.tx.phase = .idle) (hp : f.phase = .drain) (hrx : s.rx = more)
    (hfr : s.fr = f.holding s.cfg popped) :
    Host.Core.run core more.length s = .next { s with rx := [], fr := f.holding s.cfg (popped ++ more) } := by
  induction more generalizing s popped with
  | nil =>
    have hsame : ({ s with rx := [], fr := f.holding s.cfg popped } : State) = s := by rw [← hfr, ← hrx]
    rw [List.append_nil, hsame]
    rfl
  | cons b more ih =>
    have hdrain : s.fr.phase = .drain := by rw [hfr]; exact hp
    have hstep := step_of_silent_receive hscript hbeat htx (by simp [hdrain])
      (receiveStep_byte hdrain hrx (by rw [hfr]; exact FrameReceiver.holding_buf_bound f s.cfg popped))
    rw [hfr, FrameReceiver.absorb_holding] at hstep
    have hrest := ih (s := { s with rx := more, fr := f.holding s.cfg (popped ++ [b]) }) hscript hbeat htx rfl rfl
    rw [List.append_assoc] at hrest
    exact run_of_step hstep hrest

/-! ### The iterations -/

/-- A history keeps its capacity whatever was cut from it before. -/
theorem take_cons_take {α : Type} (a : α) (l : List α) (n : Nat) : (a :: l.take n).take n = (a :: l).take n := by
  cases n with
  | zero => rfl
  | succ n => rw [List.take_succ_cons, List.take_succ_cons, List.take_take, Nat.min_eq_left n.le_succ]

section silent

variable {s : State}

/-- A call on a silent line that has popped all its bytes, in the phase `p`, with `iter` iterations counted and `zeros`
samples of 0 taken after the first one. -/
def State.drained (s : State) (p : ReceivePhase) (iter zeros : Nat) : State :=
  { s with
    rx := []
    fr := { s.fr.holding s.cfg s.rx with
      phase := p
      iter := iter
      hist := (List.replicate zeros 0 ++ [s.rx.length]).take s.fr.histCap } }

/-- No sample but the first finds a byte, so the history is quiet from its capacity on, where a frame came (R149). -/
theorem quiet_drained (p : ReceivePhase) (iter : Nat) (hframe : s.cfg.frameLen ≤ s.rx.length) :
    (s.drained p iter s.fr.histCap).fr.quiet = true := by
  have hpackets := List.length_pos_of_ne_nil (wholeFrames_ne_nil (frameLen_pos s.cfg) hframe)
  have htake : (List.replicate s.fr.histCap 0 ++ [s.rx.length]).take s.fr.histCap = List.replicate s.fr.histCap 0 :=
    List.take_left' List.length_replicate
  rw [FrameReceiver.quiet_iff]
  simp only [State.drained, htake]
  refine ⟨List.length_replicate, fun _ => List.eq_of_mem_replicate, ?_⟩
  rw [FrameReceiver.holding, List.length_map]
  exact hpackets

/-- Until then the first sample, of the bytes that a frame has, is still in the history. -/
theorem not_quiet_of_history (p : ReceivePhase) (iter : Nat) {zeros : Nat} (hframe : s.cfg.frameLen ≤ s.rx.length)
    (hz : zeros < s.fr.histCap) : (s.drained p iter zeros).fr.quiet ≠ true := by
  rw [ne_eq, FrameReceiver.quiet_iff]
  rintro ⟨-, hzeros, -⟩
  have hfirst : s.rx.length ∈ (List.replicate zeros 0 ++ [s.rx.length]).take s.fr.histCap := by
    rw [List.take_of_length_le (by simpa using hz)]
    simp
  have := frameLen_pos s.cfg
  have := hzeros _ hfirst
  omega

/-- Where no frame came nothing is quiet. -/
theorem not_quiet_of_no_frame (p : ReceivePhase) (iter zeros : Nat) (hshort : s.rx.length < s.cfg.frameLen) :
    (s.drained p iter zeros).fr.quiet ≠ true := by
  rw [ne_eq, FrameReceiver.quiet_iff]
  rintro ⟨-, -, hpackets⟩
  simp [State.drained, FrameReceiver.holding, wholeFrames_eq_nil hshort] at hpackets

variable (hscript : s.script = []) (hbeat : s.beat = []) (htx : s.tx.phase = .idle)
include hscript hbeat htx

/-- F4 of a drained call. -/
theorem step_drained_end (iter zeros : Nat) :
    step (s.drained .drain iter zeros) = .next (s.drained
      (if (s.drained .drain iter zeros).fr.quiet = true then .done else .sleep) (iter + 1) zeros) :=
  step_of_silent_receive hscript hbeat htx (by simp [State.drained]) (receiveStep_endDrain rfl rfl)

/-- F5 of a drained call. -/
theorem step_drained_sleep (iter zeros : Nat) :
    step (s.drained .sleep iter zeros) = .next (s.drained .sample iter zeros) :=
  step_of_silent_receive hscript hbeat htx (by simp [State.drained]) (receiveStep_asleep (.inr rfl))

/-- F2 of a drained call samples a zero. -/
theorem step_drained_sample {iter zeros : Nat} (hi : iter ≠ s.fr.maxTries) :
    step (s.drained .sample iter zeros) = .next (s.drained .drain iter (zeros + 1)) := by
  refine step_of_silent_receive hscript hbeat htx (by simp [State.drained]) ((receiveStep_sample rfl hi).trans ?_)
  simp only [State.drained, FrameReceiver.holding, FrameReceiver.histCap, List.length_nil, take_cons_take,
    List.replicate_succ, List.cons_append]

/-- F2 of a drained call with its budget exhausted. -/
theorem step_drained_exhausted (zeros : Nat) :
    step (s.drained .sample s.fr.maxTries zeros) = .next (s.drained .done s.fr.maxTries zeros) :=
  step_of_silent_receive hscript hbeat htx (by simp [State.drained]) (receiveStep_exhausted rfl rfl)

/-- Three steps are an iteration that is not the last. -/
theorem run_iteration {i : Nat} (hi : i + 1 < s.fr.maxTries) (hnot : (s.drained .drain i i).fr.quiet ≠ true) :
    Host.Core.run core 3 (s.drained .drain i i) = .next (s.drained .drain (i + 1) (i + 1)) := by
  have hend := step_drained_end hscript hbeat htx i i
  rw [if_neg hnot] at hend
  exact run_of_step hend (run_of_step (step_drained_sleep hscript hbeat htx _ _)
    (run_one (step_drained_sample hscript hbeat htx hi.ne)))

/-- Iterations that are not quiet follow one another while there are tries left. -/
theorem run_iterations {i : Nat} (hi : i < s.fr.maxTries) (hnot : ∀ k < i, (s.drained .drain k k).fr.quiet ≠ true) :
    Host.Core.run core (3 * i) (s.drained .drain 0 0) = .next (s.drained .drain i i) := by
  induction i with
  | zero => rfl
  | succ i ih =>
    exact run_of_run (ih (Nat.lt_of_succ_lt hi) fun k hk => hnot k (Nat.lt_succ_of_lt hk))
      (run_iteration hscript hbeat htx hi (hnot i i.lt_succ_self))

end silent

/-- The receiver that begins its first drain with `available` bytes to pop. -/
def FrameReceiver.firstDrain (timeout maxTries available : Nat) : FrameReceiver :=
  { FrameReceiver.start timeout maxTries with phase := .drain, hist := [available].take (maxTries / 2) }

/-- It has popped nothing yet. -/
theorem FrameReceiver.holding_firstDrain (timeout maxTries available : Nat) (c : Config) :
    (FrameReceiver.firstDrain timeout maxTries available).holding c [] = .firstDrain timeout maxTries available := by
  rw [FrameReceiver.holding, wholeFrames_eq_nil (frameLen_pos c)]
  simp [FrameReceiver.firstDrain, FrameReceiver.start, partialFrame]

section started

variable {s : State} {timeout maxTries : Nat} (hscript : s.script = []) (hbeat : s.beat = []) (htx : s.tx.phase = .idle)
  (hstart : s.fr = .start timeout maxTries) (htries : 1 ≤ maxTries)
include hscript hbeat htx hstart htries

/-- F1, and F2 with a try left. -/
theorem run_first_sample :
    Host.Core.run core 2 s = .next { s with fr := .firstDrain timeout maxTries s.rx.length } := by
  have hwait : step s = .next { s with fr := { FrameReceiver.start timeout maxTries with phase := .sample } } := by
    rw [← hstart]
    exact step_of_silent_receive hscript hbeat htx (by rw [hstart]; simp [FrameReceiver.start])
      (receiveStep_asleep (.inl (by rw [hstart]; rfl)))
  refine run_of_step hwait (run_one ?_)
  exact step_of_silent_receive hscript hbeat htx (by simp) (receiveStep_sample rfl (Nat.ne_of_lt htries))

/-- From F0 to the end of the first drain: one sample, and every byte popped. -/
theorem run_first_drain : Host.Core.run core (2 + s.rx.length) s = .next (s.drained .drain 0 0) := by
  have hdrain := run_drain (s := { s with fr := .firstDrain timeout maxTries s.rx.length }) (popped := [])
    hscript hbeat htx rfl rfl (FrameReceiver.holding_firstDrain timeout maxTries s.rx.length s.cfg).symm
  refine run_of_run (run_first_sample hscript hbeat htx hstart htries) (hdrain.trans ?_)
  simp [State.drained, FrameReceiver.holding, hstart, FrameReceiver.firstDrain, FrameReceiver.start,
    FrameReceiver.histCap]

/-- The iterations end with the receiver done: after `1 + floor(max_tries / 2)` of them where a whole frame came, and
after all of them where none did (R154, R156). -/
theorem run_to_done :
    ∃ n iter zeros, Host.Core.run core n s = .next (s.drained .done iter zeros) ∧
      (s.cfg.frameLen ≤ s.rx.length → iter = 1 + maxTries / 2) ∧ (s.rx.length < s.cfg.frameLen → iter = maxTries) := by
  have hmax : s.fr.maxTries = maxTries := by rw [hstart]; rfl
  have hcap : s.fr.histCap = maxTries / 2 := by rw [FrameReceiver.histCap, hmax]
  have hdrain := run_first_drain hscript hbeat htx hstart htries
  rcases Nat.lt_or_ge s.rx.length s.cfg.frameLen with hshort | hframe
  · obtain ⟨last, rfl⟩ := Nat.exists_eq_add_of_le' htries
    have hrounds := run_iterations hscript hbeat htx (i := last) (by omega)
      fun k _ => not_quiet_of_no_frame _ k k hshort
    have hend := step_drained_end hscript hbeat htx last last
    rw [if_neg (not_quiet_of_no_frame _ last last hshort), ← hmax] at hend
    have hlast := run_of_step hend (run_of_step (step_drained_sleep hscript hbeat htx _ _)
      (run_one (step_drained_exhausted hscript hbeat htx last)))
    exact ⟨_, _, _, run_of_run hdrain (run_of_run hrounds hlast), fun h => absurd hshort h.not_gt, fun _ => hmax⟩
  · have hrounds := run_iterations hscript hbeat htx (i := s.fr.histCap) (by omega)
      fun k hk => not_quiet_of_history _ k hframe hk
    have hend := step_drained_end hscript hbeat htx s.fr.histCap s.fr.histCap
    rw [if_pos (quiet_drained _ _ hframe)] at hend
    exact ⟨_, _, _, run_of_run hdrain (run_of_run hrounds (run_one hend)),
      fun _ => by rw [hcap, Nat.add_comm], fun h => absurd h hframe.not_gt⟩

end started

/-- Settles O35: the receiver ends up done with every byte popped, and delivers. -/
theorem silentChannelReceivesExactlyTheWholeFrames : Obligations.SilentChannelReceivesExactlyTheWholeFrames := by
  intro s _ hscript hbeat htx htries hstart
  obtain ⟨n, iter, zeros, hdone, hwhole, hshort⟩ := run_to_done hscript hbeat htx hstart htries
  have hdeliver := step_of_silent_receive (s := s.drained .done iter zeros) hscript hbeat htx (by simp [State.drained])
    (receiveStep_done rfl)
  exact ⟨n + 1, _, run_of_run hdone (run_one hdeliver), rfl, rfl, rfl, hwhole, hshort, rfl, rfl, rfl, rfl, rfl, rfl, rfl⟩

end Sys2Proof.Machine
end

section
/-! SUPPORT. How a unit of the session's work ends, and a packet command in its two roles: as a request (R191, R192,
R197, R198), and as the reply an exchange awaits (R198 to R205). -/

namespace Sys2Proof.Machine

/-! ### The end of a unit of work -/

theorem goOn_of_work {s : State} (h : s.ses.plan ≠ []) : s.goOn = s.setSes { s.ses with awaiting := none } := by
  simp [State.goOn, h]

theorem goOn_of_done {s : State} (h : s.ses.plan = []) : s.goOn = s.endHandler .ok := by
  simp [State.goOn, h]

/-- The handler goes on or ends well, written as one value of the session. -/
theorem goOn_eq (s : State) : s.goOn = s.setSes (
    if s.ses.plan = [] then { s.ses with awaiting := none, multi := false, outcome := .ok }
    else { s.ses with awaiting := none }) := by
  split
  · rename_i hdone
    rw [goOn_of_done hdone, State.endHandler, ← hdone]
  · rename_i hwork
    exact goOn_of_work hwork

section roles

variable {s : State} (hb : s.st.busy = false) {request : State → State} {reply : Purpose → State → State}

include hb

theorem packetCommand_of_request (hn : s.ses.awaiting = none) :
    s.packetCommand request reply = .next (request s) := by
  simp [State.packetCommand, serve_idle hb, hn]

theorem packetCommand_of_reply {p : Purpose} (ha : s.ses.awaiting = some p) :
    s.packetCommand request reply = .next (reply p s) := by
  simp [State.packetCommand, serve_idle hb, ha]

end roles

/-! ### Requests -/

theorem withDevice_known {s : State} (hon : s.ses.chanOn = true) (d : Device) (absent : CommandError)
    (k : Device → State) : s.withDevice (some d) absent k = k d := by
  simp [State.withDevice, hon]

/-- A command that names a known device begins its exchange. -/
theorem requestTo_known {s : State} {f : FrameBody} {d : Device} (hon : s.ses.chanOn = true)
    (hd : s.target f = some d) (c : Byte) (sweeps : Bool) (p : Device → Purpose) :
    s.requestTo c sweeps f p = s.beginExchange c f (p d) := by
  rw [State.requestTo, hd, withDevice_known hon]

/-- Settles O45: `beginExchange` lays out the ten tasks of R192. -/
theorem requestsBeginTheirExchange : Obligations.RequestsBeginTheirExchange := by
  intro s f hb hn
  refine ⟨fun hon => ?_, fun hoff => ?_, fun d hon hd => ?_⟩
  · rw [exec, execPing, packetCommand_of_request hb hn, if_pos hon]
    rfl
  · rw [exec, execPing, packetCommand_of_request hb hn, if_neg (by simp [hoff])]
    rfl
  · simp only [exec, execRead, execSensors, execLoad, execExec, execRetr, packetCommand_of_request hb hn,
      requestTo_known hon hd]
    exact ⟨rfl, rfl, rfl, rfl, rfl⟩

theorem regions_eq_div {s : State} (h : 1 ≤ s.cfg.dataSize) (d : Device) :
    s.regions d = d.sramSize / s.cfg.dataSize := by
  rw [State.regions, regionCount, if_neg (by omega)]

/-- A WRITE to a known device as a request: the offset's check, which WRITE_INVERT leaves out (R198, R199). -/
theorem exec_write_known {s : State} {f : FrameBody} {d : Device} (hb : s.st.busy = false)
    (hn : s.ses.awaiting = none) (hon : s.ses.chanOn = true) (hd : s.target f = some d) :
    exec (.write f) s = .next (
      if s.ses.multi = true ∨ f.options.toNat ≤ s.regions d then s.beginExchange 4 f (.write d f.options.toNat)
      else s.endHandler (.commandError (.offsetRange f.options.toNat (s.regions d)))) := by
  rw [exec, execWrite, packetCommand_of_request hb hn, hd, withDevice_known hon]

/-- Settles O46: the two clauses are the two outcomes of the check. -/
theorem writeRequestChecksItsOffset : Obligations.WriteRequestChecksItsOffset := by
  intro s f d hb hn hon hsize hd
  rw [exec_write_known hb hn hon hd, regions_eq_div hsize]
  refine ⟨fun hfits => ?_, fun hmulti hlarge => ?_⟩
  · rw [if_pos hfits]
    rfl
  · rw [if_neg (by simp [hmulti]; omega)]
    rfl

/-! ### Replies -/

/-- The packet commands with the fields `f` that answer an exchange: all but ERR (R205). -/
def answers (f : FrameBody) : List Instr :=
  [.ack f, .ping f, .read f, .write f, .sensors f, .load f, .exec f, .retr f]

/-- Any of them is read by the exchange that awaits it, for its own frame's bytes. -/
theorem exec_answer {s : State} {f : FrameBody} {i : Instr} {p : Purpose} (hb : s.st.busy = false)
    (hi : i ∈ answers f) (ha : s.ses.awaiting = some p) :
    ∃ c, encode i = frameBytes c f ∧ exec i s = .next (s.acceptReply c f p) := by
  simp only [answers, List.mem_cons, List.not_mem_nil, or_false] at hi
  rcases hi with rfl | rfl | rfl | rfl | rfl | rfl | rfl | rfl <;>
    simp only [exec, execAck, execPing, execRead, execWrite, execSensors, execLoad, execExec, execRetr,
      packetCommand_of_reply hb ha] <;>
    exact ⟨_, rfl, rfl⟩

/-- An ACK that no exchange awaits is discarded. -/
theorem exec_ack_unawaited {s : State} (hb : s.st.busy = false) (hn : s.ses.awaiting = none) (f : FrameBody) :
    exec (.ack f) s = .next s := by
  rw [exec, execAck, packetCommand_of_request hb hn, id_eq]

/-- So is an ERR. -/
theorem exec_err_unawaited {s : State} (hb : s.st.busy = false) (hn : s.ses.awaiting = none) (f : FrameBody) :
    exec (.err f) s = .next s := by
  rw [exec, execErr, packetCommand_of_request hb hn, id_eq]

theorem exec_err_awaited {s : State} {p : Purpose} (hb : s.st.busy = false) (ha : s.ses.awaiting = some p)
    (f : FrameBody) : exec (.err f) s = .next (s.skipOrFail p (.deviceError 0xFF)) := by
  rw [exec, execErr, packetCommand_of_reply hb ha]

/-- Settles O48: the reply's reading of both exchanges is that the handler goes on. -/
theorem anyReplyAnswersWriteAndLoad : Obligations.AnyReplyAnswersWriteAndLoad := by
  intro s f hb
  refine ⟨fun d k i ha hi => ?_, fun hn => exec_ack_unawaited hb hn f⟩
  obtain ⟨p, hp, hread⟩ : ∃ p, s.ses.awaiting = some p ∧ ∀ c, s.acceptReply c f p = s.goOn := by
    rcases ha with ha | ha <;> exact ⟨_, ha, fun _ => rfl⟩
  obtain ⟨c, -, hexec⟩ := exec_answer hb hi hp
  rw [hexec, hread]
  exact ⟨fun hwork => congrArg _ (goOn_of_work hwork), fun hdone => congrArg _ (goOn_of_done hdone)⟩

theorem digitChar_of_lt_ten {d : Nat} (h : d < 10) : digitChar d = d.digitChar := by
  interval_cases d <;> rfl

/-- The model's decimal digits are the library's. -/
theorem digitsUpTo_ten {fuel n : Nat} (h : n ≤ fuel) : digitsUpTo 10 fuel n = Nat.toDigits 10 n := by
  have hlow (m : Nat) : digitChar (m % 10) = (m % 10).digitChar := digitChar_of_lt_ten (Nat.mod_lt _ (by decide))
  induction fuel generalizing n with
  | zero =>
    obtain rfl : n = 0 := by omega
    rfl
  | succ fuel ih =>
    unfold digitsUpTo
    split
    · rename_i hn
      rw [Nat.toDigits_of_lt_base hn, digitChar_of_lt_ten hn]
    · rename_i hn
      rw [Nat.toDigits_of_base_le (by decide) (by omega), ih (by omega), hlow]

theorem decimal_eq_toString (v : Int) : decimal v = (toString v).toList := by
  have hdigits (n : Nat) : digits 10 n = n.repr.toList := by
    rw [digits, digitsUpTo_ten le_rfl, Nat.repr_eq_ofList_toDigits, String.toList_ofList]
  cases v with
  | ofNat n => exact hdigits n
  | negSucc n =>
    have hspelling : (toString (Int.negSucc n)).toList = ("-" ++ (n + 1).repr).toList := rfl
    rw [hspelling, String.toList_append, ← hdigits]
    rfl

theorem replacePair_cons_ne {a b c x y : Char} (h : ¬ (x = a ∧ y = b)) (rest : List Char) :
    replacePair a b c (x :: y :: rest) = x :: replacePair a b c (y :: rest) := by
  rw [replacePair, if_neg h]

/-- Settles O49: the readings of the two replies, then the display string, whose spelling is the library's. -/
theorem execAndRetrReadTheirReplies : Obligations.ExecAndRetrReadTheirReplies := by
  refine ⟨fun s f d i hb hplan hi => ?_, fun values => ?_, fun a b c x y rest => ⟨rfl, rfl, ?_, ?_⟩, ?_⟩
  · refine ⟨fun ha hzero => ?_, fun ha hcode => ?_, fun ha => ?_⟩
    all_goals
      obtain ⟨c, -, hexec⟩ := exec_answer hb hi ha
      rw [hexec]
    · rw [State.acceptReply, if_pos hzero, goOn_of_done hplan]
      simp [State.endHandler, State.setSes]
    · rw [State.acceptReply, if_neg hcode]
      simp [State.endHandler, State.setSes]
    · rfl
  · simp only [displayText, decimal_eq_toString]
  · rw [replacePair, if_pos ⟨rfl, rfl⟩]
  · exact fun h => replacePair_cons_ne h rest
  · decide

/-- Settles O50: a sample inserted, or two tasks put before the rest of the work. -/
theorem readAndSensorsRecordTheirReplies : Obligations.ReadAndSensorsRecordTheirReplies := by
  intro s f d k i hb hi
  refine ⟨fun ha => ?_, fun ha => ?_⟩
  · obtain ⟨c, -, hexec⟩ := exec_answer hb hi ha
    rw [hexec, State.acceptReply, goOn_eq]
    refine ⟨fun hwork => ?_, fun hdone => ?_⟩
    · rw [if_neg (by exact hwork)]
      rfl
    · rw [if_pos (by exact hdone)]
      rfl
  · obtain ⟨c, hbytes, hexec⟩ := exec_answer hb hi ha
    rw [hexec, hbytes]
    rfl

/-! ### A unit of work that comes to nothing -/

section comesToNothing

variable {s : State} {p : Purpose} (why : CommandError)

theorem skipOrFail_of_skip (h : p.sweeps = true ∨ s.ses.multi = true) :
    s.skipOrFail p why = (s.emit .warning (.skipped p why)).goOn := by
  rw [State.skipOrFail, if_pos (by simpa using h)]

theorem skipOrFail_of_fail (hp : p.sweeps = false) (hm : s.ses.multi = false) :
    s.skipOrFail p why = (s.emit .error (.failed p why)).endHandler (.commandError why) := by
  rw [State.skipOrFail, if_neg (by simp [hp, hm])]

end comesToNothing

/-- Settles O52: the unit is skipped or the handler fails, as the exchange or its handler sweeps or not. -/
theorem errSkipsTheUnitOrFailsTheHandler : Obligations.ErrSkipsTheUnitOrFailsTheHandler := by
  refine ⟨fun s p why => ⟨fun hskip => ?_, fun hsingle hm => ?_⟩, fun s f hb =>
    ⟨fun p ha => exec_err_awaited hb ha f, fun hn => exec_err_unawaited hb hn f⟩⟩
  · have hsweeps : p.sweeps = true ∨ s.ses.multi = true := by
      rcases hskip with rfl | ⟨d, k, rfl⟩ | ⟨d, rfl⟩ | hm
      · exact .inl rfl
      · exact .inl rfl
      · exact .inl rfl
      · exact .inr hm
    rw [skipOrFail_of_skip why hsweeps, goOn_eq]
    refine ⟨fun hwork => ?_, fun hdone => ?_⟩
    · rw [if_neg (by exact hwork)]
      rfl
    · rw [if_pos (by exact hdone)]
      rfl
  · have hsweeps : p.sweeps = false := by
      rcases hsingle with ⟨d, k, rfl⟩ | ⟨d, rfl⟩ | ⟨d, rfl⟩ | ⟨d, rfl⟩ <;> rfl
    exact skipOrFail_of_fail why hsweeps hm

end Sys2Proof.Machine
end

section
/-! SUPPORT. The session's tasks (R192, R195, R204, R210, R223, R234), and the end of PING (R193, R194, R238). -/

namespace Sys2Proof.Machine

/-! ### A block operation requested by the session -/

section requests

variable {u : State} {k : Value → State → State}

theorem afterRequest_error {e : BlockError} (h : u.resp = .error e) :
    afterRequest (.next u) k = .next (u.endHandler (.blockError e)) := by
  simp only [afterRequest, h]

theorem afterRequest_ok {v : Value} (h : u.resp = .ok v) : afterRequest (.next u) k = .next (k v u) := by
  simp only [afterRequest, h]

/-- A result the session makes nothing of leaves it as it is. -/
theorem afterRequest_idle (h : ∀ e, u.resp ≠ .error e) : afterRequest (.next u) (fun _ s => s) = .next u := by
  cases hresp : u.resp with
  | error e => exact absurd hresp (h e)
  | ok v => exact afterRequest_ok hresp
  | pending => simp only [afterRequest, hresp]
  | none => simp only [afterRequest, hresp]

end requests

/-- Settles O51, a task after another. -/
theorem sessionTasksRequestRecordAndCommit : Obligations.SessionTasksRequestRecordAndCommit := by
  intro s
  refine ⟨fun i => rfl, fun i u hu => ⟨fun e he => ?_, fun hne => ?_⟩, fun hb => ⟨fun hc => ?_, fun hc => ?_⟩,
    fun uid u hu => ⟨fun e he => ?_, fun a b hab => ?_⟩, congrArg _ (goOn_eq s.commit)⟩
  · rw [State.runTask, hu, afterRequest_error he]
    rfl
  · rw [State.runTask, hu, afterRequest_idle hne]
  · rw [State.runTask, exec_toBytes_idle hb, if_pos hc, afterRequest_ok rfl]
    rfl
  · rw [State.runTask, exec_toBytes_idle hb, if_neg (by simp [hc]), afterRequest_error rfl]
    rfl
  · rw [State.runTask, hu, afterRequest_error he]
    rfl
  · rw [State.runTask, hu, afterRequest_ok hab, insertSensors, goOn_eq]
    rfl

/-! ### The end of PING -/

/-- The reply frames PING makes devices of: their check passes, and they carry one of the eight commands but ERR. -/
theorem chainOf_eq (replies : List (Packet × Bool)) :
    chainOf replies =
      (replies.filter fun r => r.2 = true ∧ 1 ≤ r.1.command.toNat ∧ r.1.command.toNat ≤ 8).map (·.1.device) := by
  have hgood : ∀ r : Packet × Bool, (r.2 && !r.1.isErrorReply) =
      decide (r.2 = true ∧ 1 ≤ r.1.command.toNat ∧ r.1.command.toNat ≤ 8) := by
    intro r
    rw [isErrorReply_eq, ← decide_not, Bool.eq_iff_iff]
    simp only [Bool.and_eq_true, decide_eq_true_eq]
    exact and_congr_right fun _ => by omega
  simp only [chainOf, hgood]

theorem pingWarning_eq (r : Packet × Bool) :
    pingWarning r =
      if r.2 = false then some ⟨.warning, .frameDropped r.1⟩
      else if r.1.command.toNat = 0 ∨ 9 ≤ r.1.command.toNat then some ⟨.warning, .errorReply r.1⟩
      else none := by
  obtain ⟨p, ok⟩ := r
  cases ok
  · rfl
  · simp [pingWarning, isErrorReply_eq]

section finishPing

variable {s : State} {found : List Device} {log : List LogLine} (hfound : chainOf s.replies = found)
  (hlog : s.ses.log ++ s.replies.filterMap pingWarning = log)

include hfound hlog

theorem finishPing_of_some (hf : found ≠ []) :
    s.finishPing = (s.setSes { s.ses with devices := found, log := log ++ [⟨.informational, .chain found⟩] }).goOn := by
  subst hfound hlog
  rw [State.finishPing, if_neg (by simpa using hf)]
  rfl

theorem finishPing_of_lost (hf : found = []) (hd : s.ses.devices ≠ []) :
    s.finishPing = (s.setSes { s.ses with log := log }).endHandler .hardError := by
  subst hlog
  rw [State.finishPing, if_pos (by simp [hfound, hf]), if_neg (by simpa using hd)]

theorem finishPing_of_none (hf : found = []) (hd : s.ses.devices = []) :
    s.finishPing = (s.setSes { s.ses with log := log }).useFree.endHandler
      (.emptyChain (Config.emptyChainReported s.free)) := by
  subst hlog
  rw [State.finishPing, if_pos (by simp [hfound, hf]), if_pos (by simp [hd])]

end finishPing

/-- The first entry of the session's work is taken up: `rest` is left of the schedule, `tasks` of the work. -/
def State.takenUp (s : State) (rest : List Input) (tasks : List Task) : State :=
  { s with script := rest, ses := { s.ses with plan := tasks } }

/-- The agents inside come to the end of a PING exchange. -/
theorem step_of_consult_ping {s : State} {rest : List Input} {tasks : List Task} (hturn : s.Turn rest)
    (htx : s.tx.phase = .idle) (hfr : s.fr.phase = .idle) (hplan : s.ses.plan = .consult .ping :: tasks) :
    step s = .next (s.takenUp rest tasks).finishPing :=
  (step_turn hturn).trans (advance_task (s := { s with script := rest }) htx hfr hplan)

/-- Settles O54: the chain and the warnings are those of the statement, and each clause is a case of `finishPing`. -/
theorem pingReplacesTheDeviceList : Obligations.PingReplacesTheDeviceList := by
  intro s rest tasks hturn htx hfr hplan replies good found log replaced ended
  have hstep : step s = .next (s.takenUp rest tasks).finishPing := step_of_consult_ping hturn htx hfr hplan
  have hfound : chainOf (s.takenUp rest tasks).replies = found := chainOf_eq _
  have hlog : (s.takenUp rest tasks).ses.log ++ (s.takenUp rest tasks).replies.filterMap pingWarning = log :=
    congrArg (s.ses.log ++ ·) (List.filterMap_congr fun r _ => pingWarning_eq r)
  clear_value found log
  rw [hstep]
  refine ⟨fun hf hwork => ?_, fun hf hdone => ?_, fun hf hd => ?_, fun hf hd => ⟨Config.emptyChainReported s.free, ?_⟩⟩
  · rw [finishPing_of_some hfound hlog hf, goOn_eq, if_neg (by exact hwork)]
    rfl
  · rw [finishPing_of_some hfound hlog hf, goOn_eq, if_pos (by exact hdone)]
    rfl
  · rw [finishPing_of_lost hfound hlog hf hd]
    rfl
  · rw [finishPing_of_none hfound hlog hf hd]
    rfl

end Sys2Proof.Machine
end

section
/-! SUPPORT. What comes before any I/O (R191, R228, R235): the channel's and the device's check of a packet command and
of a handler, and the work each handler lays out (R193 to R206). -/

namespace Sys2Proof.Machine

/-! ### A command that names a device -/

theorem withDevice_channelOff {s : State} (hoff : s.ses.chanOn = false) (found : Option Device) (absent : CommandError)
    (k : Device → State) : s.withDevice found absent k = s.endHandler (.commandError .channelOff) := by
  simp [State.withDevice, hoff]

theorem withDevice_unknown {s : State} (hon : s.ses.chanOn = true) (absent : CommandError) (k : Device → State) :
    s.withDevice none absent k = s.endHandler (.commandError absent) := by
  simp [State.withDevice, hon]

theorem absent_of_noDevices {s : State} (hd : s.ses.devices = []) (uid : List Byte) :
    s.absent true uid = .noDevices := by
  simp [State.absent, hd]

theorem absent_of_single (s : State) (uid : List Byte) : s.absent false uid = .unknownDevice uid := rfl

theorem absent_of_devices {s : State} (hd : s.ses.devices ≠ []) (sweeps : Bool) (uid : List Byte) :
    s.absent sweeps uid = .unknownDevice uid := by
  simp [State.absent, hd]

/-- Each of the six commands that name a device, as a request, asks for the channel and the device first; READ and
SENSORS are those of the sweeping handlers. -/
theorem exec_named {s : State} {f : FrameBody} {i : Instr} (hb : s.st.busy = false) (hn : s.ses.awaiting = none)
    (hi : i ∈ [Instr.read f, .write f, .sensors f, .load f, .exec f, .retr f]) :
    ∃ sweeps k, (sweeps = true ↔ i = .read f ∨ i = .sensors f) ∧
      exec i s = .next (s.withDevice (s.target f) (s.absent sweeps (uidString f.uid)) k) := by
  simp only [List.mem_cons, List.not_mem_nil, or_false] at hi
  rcases hi with rfl | rfl | rfl | rfl | rfl | rfl <;>
    simp only [exec, execRead, execWrite, execSensors, execLoad, execExec, execRetr, State.requestTo,
      packetCommand_of_request hb hn] <;>
    exact ⟨_, _, by simp, rfl⟩

/-- Settles O47: `withDevice` tests the channel before the device, and both before the exchange. -/
theorem commandPreconditionsComeBeforeIO : Obligations.CommandPreconditionsComeBeforeIO := by
  intro s f i hb hn hi ended
  obtain ⟨sweeps, k, hsweeps, hexec⟩ := exec_named hb hn hi
  have hunknown (hon : s.ses.chanOn = true) (ht : s.target f = none) :
      exec i s = .next (ended (s.absent sweeps (uidString f.uid))) := by
    rw [hexec, ht, withDevice_unknown hon]
    rfl
  have hempty (hd : s.ses.devices = []) : s.target f = none := by
    simp [State.target, Session.device, hd]
  refine ⟨fun hoff => ?_, fun hon hd hswept => ?_, fun hon hd hread hsensors => ?_, fun hon hd ht => ?_⟩
  · rw [hexec, withDevice_channelOff hoff]
    rfl
  · rw [hunknown hon (hempty hd), hsweeps.mpr hswept, absent_of_noDevices hd]
  · have hsingle : sweeps = false := by
      rw [← Bool.not_eq_true, hsweeps]
      exact not_or.mpr ⟨hread, hsensors⟩
    rw [hunknown hon (hempty hd), hsingle, absent_of_single]
  · rw [hunknown hon ht, absent_of_devices hd]

/-! ### A handler's preconditions -/

section handlers

variable {s : State}

theorem withDevices_channelOff (hoff : s.ses.chanOn = false) (k : List Device → State) :
    s.withDevices k = s.endHandler (.commandError .channelOff) := by
  simp [State.withDevices, hoff]

theorem withDevices_none (hon : s.ses.chanOn = true) (hd : s.ses.devices = []) (k : List Device → State) :
    s.withDevices k = s.endHandler (.commandError .noDevices) := by
  simp [State.withDevices, hon, hd]

theorem withDevices_some (hon : s.ses.chanOn = true) (hd : s.ses.devices ≠ []) (k : List Device → State) :
    s.withDevices k = k s.ses.devices := by
  simp [State.withDevices, hon, hd]

theorem withUid_channelOff (hoff : s.ses.chanOn = false) (uid : List Byte) (k : Device → State) :
    s.withUid uid k = s.endHandler (.commandError .channelOff) :=
  withDevice_channelOff hoff _ _ k

theorem withUid_unknown {uid : List Byte} (hon : s.ses.chanOn = true) (hd : s.ses.deviceByUid uid = none)
    (k : Device → State) : s.withUid uid k = s.endHandler (.commandError (.unknownDevice uid)) := by
  rw [State.withUid, hd, withDevice_unknown hon]

theorem withUid_known {uid : List Byte} {d : Device} (hon : s.ses.chanOn = true)
    (hd : s.ses.deviceByUid uid = some d) (k : Device → State) : s.withUid uid k = k d := by
  rw [State.withUid, hd, withDevice_known hon]

end handlers

/-- Settles O53: each handler's first test is the channel's, but for status and power on, which have none. -/
theorem channelOffRefusesEveryOtherHandler : Obligations.ChannelOffRefusesEveryOtherHandler := by
  intro s h
  refine ⟨fun hoff hstatus hpower => ?_, rfl, rfl, rfl, rfl, rfl, rfl, rfl, fun hon => ?_⟩
  · have hrefused : s.invoke h = s.endHandler (.commandError .channelOff) := by
      cases h with
      | ping | powerOff => rw [State.invoke, if_neg (by simp [hoff])]
      | read | writeInvert | sensors => rw [State.invoke, withDevices_channelOff hoff]
      | write uid | load uid | exec uid | retr uid => exact withUid_channelOff hoff uid _
      | powerOn => exact absurd rfl hpower
      | status => exact absurd rfl hstatus
    exact hrefused
  · rw [State.invoke, if_pos hon]
    exact ⟨rfl, rfl, rfl, rfl⟩

/-! ### The work a handler lays out -/

theorem beginHandler_of_work {s : State} {multi : Bool} {plan : List Task} (h : plan ≠ []) :
    s.beginHandler multi plan =
      s.setSes { s.ses with plan := plan, awaiting := none, multi := multi, outcome := .running } := by
  rw [State.beginHandler, goOn_of_work h]
  rfl

/-- An empty interval ends the handler at once (R199). -/
theorem beginHandler_of_nothing (s : State) (multi : Bool) : s.beginHandler multi [] = s.endHandler .ok := rfl

/-- Settles O57: each handler's work, or its refusal, is the case of its preconditions. -/
theorem handlersLayOutTheirRequests : Obligations.HandlersLayOutTheirRequests := by
  intro s hon ended begun request blank
  refine ⟨?_, fun uid payload source offset flag hd h hh => ?_, fun uid source flag d hd => ⟨fun hfits => ?_,
    fun hlong => ?_, ?_, ?_⟩, fun hd h hh => ?_, fun hd => ?_⟩
  · rw [State.invoke, if_pos hon]
    rfl
  · have hrefused : s.invoke h = s.endHandler (.commandError (.unknownDevice uid)) := by
      simp only [List.mem_cons, List.not_mem_nil, or_false] at hh
      rcases hh with rfl | rfl | rfl | rfl <;> exact withUid_unknown hon hd _
    exact hrefused
  · rw [State.invoke, withUid_known hon hd, if_pos hfits]
    rfl
  · rw [State.invoke, withUid_known hon hd, if_neg (Nat.not_le.mpr hlong)]
    rfl
  · rw [State.invoke, withUid_known hon hd]
    rfl
  · rw [State.invoke, withUid_known hon hd]
    rfl
  · have hrefused : s.invoke h = s.endHandler (.commandError .noDevices) := by
      simp only [List.mem_cons, List.not_mem_nil, or_false] at hh
      rcases hh with rfl | rfl | rfl <;> rw [State.invoke, withDevices_none hon hd]
    exact hrefused
  · rw [State.invoke, withDevices_some hon hd, beginHandler_of_work (by simpa using hd)]
    rfl

/-- Settles O55: the sweep of R195 has at least a commit to do. -/
theorem readSweepsEveryRegionOfEveryDevice : Obligations.ReadSweepsEveryRegionOfEveryDevice := by
  intro s hon hd hsize
  have hwork : (s.ses.devices.flatMap fun d => readWork s.cfg.dataSize (s.regions d) d) ≠ [] := by
    obtain ⟨d, ds, hds⟩ := List.exists_cons_of_ne_nil hd
    simp [hds, readWork]
  have hinvoke : s.invoke .read = s.setSes { s.ses with
      plan := s.ses.devices.flatMap fun d => readWork s.cfg.dataSize (s.regions d) d
      awaiting := none, multi := true, outcome := .running } := by
    rw [State.invoke, withDevices_some hon hd, beginHandler_of_work hwork]
  rw [hinvoke]
  refine ⟨rfl, rfl, rfl, ?_⟩
  simp only [regions_eq_div hsize]
  rfl

/-- Settles O56: the two clauses are the two outcomes of the offset's check. -/
theorem writeHandlerAcceptsTheInclusiveBound : Obligations.WriteHandlerAcceptsTheInclusiveBound := by
  intro s uid payload offset d hon hsize hd
  refine ⟨(lays_invoke s _).only, fun hlow hhigh => ?_, fun hout => ?_⟩
  · rw [State.invoke, withUid_known hon hd, regions_eq_div hsize, if_pos ⟨hlow, hhigh⟩]
    exact ⟨rfl, rfl, rfl⟩
  · rw [State.invoke, withUid_known hon hd, regions_eq_div hsize, if_neg (by omega)]
    exact ⟨rfl, rfl⟩

end Sys2Proof.Machine
end

section
/-! SUPPORT. WRITE_INVERT (R199): the work of one device, and the order of the stored samples. -/

namespace Sys2Proof.Machine

/-! ### The order of the stored samples -/

/-- The model's insertion is the library's, by address. -/
theorem insertSample_eq (r : Record) (l : List Record) :
    insertSample r l = l.orderedInsert (Record.offset ⁻¹'o (· ≤ ·)) r := by
  induction l with
  | nil => rfl
  | cons q rest ih =>
    simp only [insertSample, List.orderedInsert_cons, ih]
    rfl

theorem storedSamples_eq (stored : List Record) (d : Device) :
    storedSamples stored d = (stored.filter (·.isSampleOf d)).insertionSort (Record.offset ⁻¹'o (· ≤ ·)) := by
  simp only [storedSamples, List.insertionSort, funext₂ insertSample_eq]

/-- Among the samples of one address the insertion puts the new one first. -/
theorem filter_insertSample (k : Nat) (r : Record) (l : List Record) :
    (insertSample r l).filter (·.offset == k) = (r :: l).filter (·.offset == k) := by
  induction l with
  | nil => rfl
  | cons q rest ih =>
    unfold insertSample
    split
    · rfl
    · rename_i hlater
      by_cases hr : r.offset = k
      · have hq : q.offset ≠ k := by omega
        simp [ih, hr, hq]
      · simp [List.filter_cons, ih, hr]

/-- So the samples of one address stay in the order of their capture. -/
theorem filter_foldr_insertSample (k : Nat) (l : List Record) :
    (l.foldr insertSample []).filter (·.offset == k) = l.filter (·.offset == k) := by
  induction l with
  | nil => rfl
  | cons r rest ih => rw [List.foldr_cons, filter_insertSample, List.filter_cons, List.filter_cons, ih]

/-! ### The turn of a device -/

/-- With all its samples stored, the device's WRITEs come before the rest of the work. -/
theorem invertDevice_of_complete {s : State} {d : Device}
    (h : (storedSamples s.ses.sink.stored d).length = s.regions d) :
    s.invertDevice d =
      (s.setPlan (invertWork (s.regions d) (storedSamples s.ses.sink.stored d) d ++ s.ses.plan)).goOn := by
  rw [State.invertDevice, if_pos h]

theorem invertDevice_of_incomplete {s : State} {d : Device}
    (h : (storedSamples s.ses.sink.stored d).length ≠ s.regions d) :
    s.invertDevice d =
      (s.emit .warning (.samplesIncomplete d (storedSamples s.ses.sink.stored d).length (s.regions d))).goOn := by
  rw [State.invertDevice, if_neg h]

theorem invoke_writeInvert {s : State} (hon : s.ses.chanOn = true) (hd : s.ses.devices ≠ []) :
    s.invoke .writeInvert = s.beginHandler true ((s.ses.devices.take (s.ses.devices.length / 2)).map .invert) := by
  rw [State.invoke, withDevices_some hon hd]

/-- Settles O58: half of one device is none, and the handler ends at once; the turns follow `goOn`. -/
theorem invertRewritesTheInnerRegions : Obligations.InvertRewritesTheInnerRegions := by
  refine ⟨fun s hon hd => ?_, fun s d hsize => ?_, fun stored d => ⟨?_, ?_, fun k => ?_⟩⟩
  · rw [invoke_writeInvert hon hd]
    have hpos : 0 < s.ses.devices.length := List.length_pos_iff.mpr hd
    by_cases hone : s.ses.devices.length = 1
    · rw [hone, Nat.div_eq_of_lt (by decide), List.take_zero, List.map_nil, beginHandler_of_nothing]
      exact ⟨rfl, rfl, fun htwo => absurd htwo (by decide), fun _ => rfl⟩
    · have hwork : (s.ses.devices.take (s.ses.devices.length / 2)).map Task.invert ≠ [] := by
        rw [← List.length_pos_iff, List.length_map, List.length_take]
        omega
      rw [beginHandler_of_work hwork]
      exact ⟨rfl, rfl, fun _ => ⟨rfl, rfl⟩, fun h => absurd h hone⟩
  · intro n samples writes goingOn
    have hn : s.regions d = n := regions_eq_div hsize d
    refine ⟨fun hcomplete => ?_, fun hmissing => ?_⟩
    · rw [State.runTask, invertDevice_of_complete (hcomplete.trans hn.symm), goOn_eq, hn]
      rfl
    · rw [State.runTask, invertDevice_of_incomplete (hn ▸ hmissing), goOn_eq, hn]
      rfl
  · rw [storedSamples_eq]
    exact List.perm_insertionSort _ _
  · rw [storedSamples_eq]
    exact List.pairwise_insertionSort _ _
  · exact filter_foldr_insertSample k _

end Sys2Proof.Machine
end

section
/-! SUPPORT. The address string (R209): the model's hexadecimal digits are the library's, written in upper case. -/

namespace Sys2Proof.Machine

/-- The model's digits of a positive number, the highest first. -/
theorem digitsUpTo_eq {b : Nat} (hbase : 1 < b) {fuel n : Nat} (hfuel : n ≤ fuel) (hpos : 0 < n) :
    digitsUpTo b fuel n = (b.digits n).reverse.map digitChar := by
  induction fuel generalizing n with
  | zero => omega
  | succ fuel ih =>
    unfold digitsUpTo
    split
    · rename_i hsmall
      rw [Nat.digits_of_lt b n hpos.ne' hsmall]
      rfl
    · rename_i hlarge
      have hless : n / b < n := Nat.div_lt_self hpos hbase
      rw [Nat.digits_def' hbase hpos, ih (by omega) (Nat.div_pos (by omega) (by omega)), List.reverse_cons,
        List.map_append]
      rfl

/-- The digits of an address as R209 prints them: padded to eight places. -/
def addressDigits (n : Nat) : List Char :=
  List.replicate (8 - (Nat.digits 16 n).length) '0' ++ (Nat.digits 16 n).reverse.map digitChar

/-- The model's padding comes to the same, for address 0 too, whose one digit the library leaves out. -/
theorem padded_digits_eq (n : Nat) :
    List.replicate (8 - (digits 16 n).length) '0' ++ digits 16 n = addressDigits n := by
  obtain rfl | hpos := Nat.eq_zero_or_pos n
  · rfl
  · rw [addressDigits, digits, digitsUpTo_eq (by decide) le_rfl hpos, List.length_map, List.length_reverse]

theorem offsetToAddress_of_nonneg {offset : Int} (h : 0 ≤ offset) (ds base : Nat) :
    offsetToAddress ds offset base = some ('0' :: 'x' :: addressDigits (base + offset.toNat * ds)) := by
  rw [offsetToAddress, if_neg (by omega), ← padded_digits_eq]
  rfl

theorem digitChar_mem_hex {d : Nat} (h : d < 16) :
    digitChar d ∈ ['0', '1', '2', '3', '4', '5', '6', '7', '8', '9', 'A', 'B', 'C', 'D', 'E', 'F'] := by
  interval_cases d <;> decide

theorem addressDigits_mem_hex {n : Nat} {c : Char} (h : c ∈ addressDigits n) :
    c ∈ ['0', '1', '2', '3', '4', '5', '6', '7', '8', '9', 'A', 'B', 'C', 'D', 'E', 'F'] := by
  rcases List.mem_append.mp h with hpad | hdigit
  · rw [List.eq_of_mem_replicate hpad]
    decide
  · obtain ⟨d, hd, rfl⟩ := List.mem_map.mp hdigit
    exact digitChar_mem_hex (Nat.digits_lt_base (by decide) (List.mem_reverse.mp hd))

/-! ### The value -/

/-- The value `hexValue` gives a digit is the digit's. -/
theorem digitChar_value {d : Nat} (h : d < 16) :
    (if (digitChar d).toNat < 65 then (digitChar d).toNat - 48 else (digitChar d).toNat - 55) = d := by
  interval_cases d <;> decide

theorem hexValue_zeros_append (k : Nat) (l : List Char) : hexValue (List.replicate k '0' ++ l) = hexValue l := by
  induction k with
  | zero => rfl
  | succ k ih => exact ih

theorem hexValue_digits {l : List Nat} (h : ∀ d ∈ l, d < 16) :
    hexValue (l.reverse.map digitChar) = Nat.ofDigits 16 l := by
  rw [hexValue, List.foldl_map, List.foldl_reverse, Nat.ofDigits_eq_foldr]
  refine List.foldr_ext _ _ _ fun d hd n => ?_
  rw [digitChar_value (h d hd), Nat.cast_id, Nat.add_comm]

theorem hexValue_addressDigits (n : Nat) : hexValue (addressDigits n) = n := by
  rw [addressDigits, hexValue_zeros_append, hexValue_digits fun d hd => Nat.digits_lt_base (by decide) hd,
    Nat.ofDigits_digits]

/-! ### The width -/

theorem addressDigits_length {n : Nat} (h : n < 2 ^ 32) : (addressDigits n).length = 8 := by
  have hwidth : (Nat.digits 16 n).length ≤ 8 := (Nat.digits_length_le_iff (by decide) n).mpr (by omega)
  simp only [addressDigits, List.length_append, List.length_replicate, List.length_map, List.length_reverse]
  omega

theorem digitChar_eq_zero {d : Nat} (h : d < 16) (hz : digitChar d = '0') : d = 0 := by
  have hvalue := digitChar_value h
  rw [hz] at hvalue
  exact hvalue.symm

/-- Past 32 bits nothing is padded, and the highest digit of a number is not 0. -/
theorem addressDigits_head {n : Nat} (h : 2 ^ 32 ≤ n) : (addressDigits n).head? ≠ some '0' := by
  have hwidth : 8 < (Nat.digits 16 n).length := (Nat.lt_digits_length_iff (by decide) n).mpr (by omega)
  have hne : Nat.digits 16 n ≠ [] := Nat.digits_ne_nil_iff_ne_zero.mpr (by omega)
  rw [addressDigits, Nat.sub_eq_zero_of_le hwidth.le, List.replicate_zero, List.nil_append, List.head?_map,
    List.head?_reverse, List.getLast?_eq_some_getLast hne, Option.map_some]
  intro hz
  have htop : (Nat.digits 16 n).getLast hne < 16 := Nat.digits_lt_base (by decide) (List.getLast_mem hne)
  exact Nat.getLast_digit_ne_zero 16 (by omega) (digitChar_eq_zero htop (Option.some.inj hz))

/-- Settles O59: the text is `addressDigits`, with its digits, its value and its width. -/
theorem addressStringShowsTheAddress : Obligations.AddressStringShowsTheAddress := by
  refine ⟨fun ds offset base => ⟨fun hneg => if_pos hneg, fun hnonneg =>
    ⟨addressDigits (base + offset.toNat * ds), offsetToAddress_of_nonneg hnonneg ds base, ?_, ?_, ?_, ?_⟩⟩,
    fun _ _ => rfl, by decide⟩
  · exact fun c => addressDigits_mem_hex
  · exact hexValue_addressDigits _
  · exact addressDigits_length
  · exact addressDigits_head

end Sys2Proof.Machine
end

section
/-! SUPPORT. The reading of an exchange's replies (R192, R204, R205, R226, R235), and the dispatcher's alarm (R212,
R232). -/

namespace Sys2Proof.Machine

/-! ### The replies of an exchange -/

/-- The agents inside take up the first entry of the session's work. -/
theorem step_of_task {s : State} {rest : List Input} {task : Task} {tasks : List Task} (hturn : s.Turn rest)
    (htx : s.tx.phase = .idle) (hfr : s.fr.phase = .idle) (hplan : s.ses.plan = task :: tasks) :
    step s = (s.takenUp rest tasks).runTask task :=
  (step_turn hturn).trans (advance_task (s := { s with script := rest }) htx hfr hplan)

section replies

variable {s : State} {p : Purpose}

theorem consult_of_noReply (hp : p ≠ .ping) (h : s.replies = []) : s.consult p = .next (s.skipOrFail p .noReply) := by
  rw [State.consult, if_neg hp, h]

theorem consult_of_reply (hp : p ≠ .ping) {r : Packet × Bool} {more : List (Packet × Bool)}
    (h : s.replies = r :: more) :
    s.consult p = (s.setPlan (laterReplies p more ++ s.ses.plan)).readReply p r.1 r.2 := by
  rw [State.consult, if_neg hp, h]

/-- Every exchange but a SENSORS discards what follows its first reply (R205). -/
theorem laterReplies_of_discarded (h : ∀ d, p ≠ .sensors d) (more : List (Packet × Bool)) :
    laterReplies p more = [] := by
  cases p with
  | sensors d => exact absurd rfl (h d)
  | _ => rfl

theorem readReply_of_command {q : Packet} {i : Instr} (h : decodeFrame s.cfg.dataSize q.wire = .ok i) :
    s.readReply p q true = exec i (s.setSes { s.ses with awaiting := some p }) := by
  rw [State.readReply, if_pos rfl, h]

theorem readReply_of_refused {q : Packet} {e : Reject} (h : decodeFrame s.cfg.dataSize q.wire = .error e) :
    s.readReply p q true = .next (s.skipOrFail p (.deviceError q.command)) := by
  rw [State.readReply, if_pos rfl, h]

/-- A packet's command byte is the first of its frame, so a reserved one is what the decoder refuses (R74, R122). -/
theorem decodeFrame_of_reserved {c : Config} {q : Packet} (hq : q.WellDecoded c)
    (h : q.command.toNat ∉ [1, 2, 3, 4, 5, 6, 7, 8, 255]) :
    decodeFrame c.dataSize q.wire = .error (.reservedCommand (byteAt q.wire 0)) := by
  obtain ⟨hlen, hfields⟩ := hq
  have hcommand : q.command = byteAt q.wire 0 := congrArg Packet.command hfields
  exact decodeFrame_reserved hlen (hcommand ▸ h)

end replies

/-- Settles O7: the two cases of `consult`, the task of a later reply, and the cases of `readReply`. -/
theorem stepReadsTheReplies : Obligations.StepReadsTheReplies := by
  refine ⟨fun s rest p tasks hturn htx hfr hplan hp => ?_, fun s rest p q ok tasks => step_of_task,
    fun s p q => ⟨rfl, fun i => readReply_of_command, fun e => readReply_of_refused, fun hq hc =>
      readReply_of_refused (decodeFrame_of_reserved hq hc)⟩⟩
  intro u
  have hstep : step s = (s.takenUp rest tasks).consult p := step_of_task hturn htx hfr hplan
  rw [hstep]
  refine ⟨fun hnone => consult_of_noReply (s := s.takenUp rest tasks) hp hnone, fun q ok more hreplies => ?_⟩
  rw [consult_of_reply (s := s.takenUp rest tasks) hp hreplies]
  refine ⟨fun d hsensors => ?_, fun hother => ?_⟩
  · subst hsensors
    rfl
  · rw [laterReplies_of_discarded hother]
    rfl

/-! ### The alarm -/

theorem step_of_alarm {s : State} {rest : List Input} (hu : s.upcoming = .alarm :: rest) :
    step s = .next (State.alarm { s with script := rest }) :=
  step_of_taken hu rfl

theorem abort_of_busy {s : State} (hb : s.st.busy = true) : s.abort = s.leave.raise (.aborted s.abortPhase) := by
  rw [State.abort, if_pos hb]

theorem abort_of_idle {s : State} (hb : s.st.busy = false) : s.abort = s := by
  rw [State.abort, if_neg (by simp [hb])]

/-- The alarm aborts what runs in the block, and ends the handler that has work left. -/
theorem alarm_eq (s : State) : s.alarm = s.abort.setSes (
    if s.ses.plan = [] then s.ses
    else { s.ses with plan := [], awaiting := none, multi := false, outcome := .timeoutFault }) := by
  have hses : s.abort.ses = s.ses := by
    unfold State.abort
    split <;> rfl
  rw [State.alarm, State.endHandler, hses]
  simp only [List.isEmpty_iff]
  split
  · rw [← hses]
    rfl
  · rfl

/-- Settles O38: the block's side of the alarm, beside what it makes of the session. -/
theorem alarmAbortsTheRunningOperation : Obligations.AlarmAbortsTheRunningOperation := by
  intro s rest hu handlerAfter
  rw [step_of_alarm hu, alarm_eq]
  refine ⟨fun hb => ?_, fun hb => ?_⟩
  · rw [abort_of_busy (s := { s with script := rest }) hb]
    rfl
  · rw [abort_of_idle (s := { s with script := rest }) hb]
    rfl

end Sys2Proof.Machine
end

section
/-! SUPPORT. Every move answers a next state (R220, R225): the pieces of a step one after another, from a task of the
session up to the step; and what a busy block (R231) and bytes that are no request make of an entry. -/

namespace Sys2Proof.Machine

/-! ### The agents inside -/

/-- What the session does with an answer is a next state, whatever the answer. -/
theorem afterRequest_answers (i : Instr) (s : State) (k : Value → State → State) :
    ∃ t, afterRequest (exec i s) k = .next t := by
  obtain ⟨u, hu⟩ := exec_answers i s
  rw [hu]
  cases hresp : u.resp with
  | error e => exact ⟨_, afterRequest_error hresp⟩
  | ok v => exact ⟨_, afterRequest_ok hresp⟩
  | pending | none => exact ⟨u, by simp only [afterRequest, hresp]⟩

theorem consult_answers (s : State) (p : Purpose) : ∃ t, s.consult p = .next t := by
  by_cases hping : p = .ping
  · exact ⟨s.finishPing, if_pos hping⟩
  · cases hreplies : s.replies with
    | nil => exact ⟨_, consult_of_noReply hping hreplies⟩
    | cons r more =>
      obtain ⟨t, ht, -⟩ := readReply_answers (s.setPlan (laterReplies p more ++ s.ses.plan)) p r.1 r.2
      exact ⟨t, (consult_of_reply hping hreplies).trans ht⟩

theorem runTask_answers (s : State) (task : Task) : ∃ t, s.runTask task = .next t := by
  cases task with
  | command i => exact exec_answers i s
  | op i => exact afterRequest_answers i s _
  | wire => exact afterRequest_answers .toBytes s _
  | consult p => exact consult_answers s p
  | reply p q ok =>
    obtain ⟨t, ht, -⟩ := readReply_answers s p q ok
    exact ⟨t, ht⟩
  | extract uid => exact afterRequest_answers .extractSensors s _
  | invert | commit => exact ⟨_, rfl⟩

theorem advance_answers (s : State) : ∃ t, s.advance = .next t := by
  unfold State.advance
  split
  · exact ⟨_, rfl⟩
  · split
    · exact ⟨_, rfl⟩
    · split
      · exact ⟨_, rfl⟩
      · exact runTask_answers _ _

/-! ### What arrives from outside -/

theorem serveRequest_answers (s : State) (bytes : List Byte) : ∃ t, s.serveRequest bytes = .next t := by
  unfold State.serveRequest
  split
  · exact exec_answers _ s
  · exact ⟨_, serve_next s _⟩
  · exact ⟨s, rfl⟩

theorem serveCommand_answers (s : State) (bytes : List Byte) : ∃ t, s.serveCommand bytes = .next t := by
  unfold State.serveCommand
  split
  · exact exec_answers _ s
  · exact ⟨_, serve_next s _⟩
  · exact ⟨_, serve_next s _⟩

theorem deliver_answers (s : State) (i : Input) : ∃ t, s.deliver i = .next t := by
  cases i with
  | turn => exact advance_answers s
  | request bytes => exact serveRequest_answers s bytes
  | command bytes => exact serveCommand_answers s bytes
  | push | handler | alarm | reset => exact ⟨_, rfl⟩

theorem step_answers (s : State) : ∃ t, step s = .next t := by
  obtain ⟨i, rest, hu⟩ := List.exists_cons_of_ne_nil (upcoming_ne_nil s)
  rw [step_of_upcoming hu]
  split
  · exact advance_answers s
  · exact deliver_answers _ i

/-- Bytes without an operation code, or without an operand of the operation's type, change nothing. -/
theorem serveRequest_of_noRequest (s : State) {bytes : List Byte}
    (h : decodeRequest bytes = .error .empty ∨ ∃ code, decodeRequest bytes = .error (.malformedOperand code)) :
    s.serveRequest bytes = .next s := by
  rcases h with h | ⟨code, h⟩ <;> simp only [State.serveRequest, h]

/-- Settles O40: an instruction is served, a step is made of pieces that answer, and no request is no change. -/
theorem everyStepAnswersANextState : Obligations.EveryStepAnswersANextState :=
  ⟨exec_answers, step_answers, fun _ _ _ hu hfree hnone =>
    (step_of_request hu hfree).trans (serveRequest_of_noRequest _ hnone)⟩

/-! ### A busy block -/

/-- A busy block does not even look whether a code is reserved (R235). -/
theorem serveRequest_reserved_busy {s : State} {bytes : List Byte} {code : BitVec 5} (hb : s.st.busy = true)
    (h : decodeRequest bytes = .error (.reservedOp code)) :
    s.serveRequest bytes = .next (s.respond (.error .busy)) := by
  simp only [State.serveRequest, h, serve_busy hb]

/-- Settles O37: a request of either kind is never deferred by a busy block, and turned away. -/
theorem busyRefusesEveryRequest : Obligations.BusyRefusesEveryRequest := by
  refine ⟨rfl, fun s rest bytes hu hb hrequest => ?_, fun s i hb => exec_busy i hb⟩
  rw [step_of_request hu (.inr hb)]
  rcases hrequest with ⟨i, hi⟩ | ⟨code, hcode⟩
  · exact (serveRequest_of_decoded hi).trans (exec_busy i hb)
  · exact serveRequest_reserved_busy (s := { s with script := rest }) hb hcode

end Sys2Proof.Machine
end
